-- ==== Sys2Proof/Word.lean ====
section
/-! DEFINITION. The bit-vector types of B32DEC, one per width the spec fixes (00_scope.md R7, 10_state.md R16, R38).
Every register and field is unsigned, and bit 0 is the least significant (R9). -/

namespace Sys2Proof

/-- An 8-bit character code (R7 `CHAR_W`, 30_encoding.md R59). -/
abbrev CharCode := BitVec 8

/-- A 5-bit symbol value (R7 `SYM_W`). -/
abbrev Sym := BitVec 5

/-- An output byte (R7 `BYTE_W`). -/
abbrev OutByte := BitVec 8

/-- The accumulator ACC (R7 `ACC_W`, 10_state.md R20). -/
abbrev Acc := BitVec 13

/-- The held-bit counter CNT (R7 `CNT_W`, 10_state.md R21). -/
abbrev Count := BitVec 4

/-- A capacity or an output count, CAP and NOUT (R7 `CAP_W`, 10_state.md R22, R23). -/
abbrev Cap := BitVec 16

/-- A stop-reason code (10_state.md R19, 60_exceptions.md R112). -/
abbrev ReasonCode := BitVec 3

/-- A command word (R7 `CMD_W`, 30_encoding.md R57). -/
abbrev CmdWord := BitVec 19

/-- An entry of the lookup ROM (30_encoding.md R65). -/
abbrev RomEntry := BitVec 7

end Sys2Proof
end

