-- ==== Sys2Proof/Config.lean ====
section
/-! DEFINITION. The fixed parameters of B32DEC (00_scope.md R7). R7: "no value is left open", so there is no free value
here: nothing in this file is opaque. `ALPHABET` and `PAD_CHAR` stand with the lookup that reads them
(Machine/Lookup.lean), where a repair can reach them. -/

namespace Sys2Proof.Config

/-- `CHAR_W`: character code width (R7). -/
def charW : Nat := 8
/-- `SYM_W`: bits per symbol (R7). -/
def symW : Nat := 5
/-- `BYTE_W`: bits per output byte (R7). -/
def byteW : Nat := 8
/-- `ACC_W`: accumulator width (R7, R8, 90_conflicts.md C3). -/
def accW : Nat := 13
/-- `CNT_W`: held-bit counter width (R7). -/
def cntW : Nat := 4
/-- `CAP_W`: capacity and output-count width (R7). -/
def capW : Nat := 16
/-- `CMD_W`: command word width (R7). -/
def cmdW : Nat := 19

end Sys2Proof.Config
end

