-- ==== Sys2Proof/Syntax.lean ====
section
/-! DEFINITION. The commands of B32DEC: one constructor per row of spec/opcode_table.json (30_encoding.md R57–R62, R68).
A constructor keeps every bit of its command word that the row leaves free, the reserved bits too (`r`), so that
no bit of a word is dropped by decoding; R64 says the hardware ignores the reserved ones. -/

namespace Sys2Proof

/-- A command (R2: the "instructions" of B32DEC are the commands of its command port). -/
inductive Instr where
  /-- START (R61, R99): the strict flag `S = w[16]` and the capacity `CAPV = w[15:0]`. -/
  | start (s : Bool) (capv : Cap)
  /-- END (R60, R103): `w[16:0]` reserved. -/
  | endInput (r : BitVec 17)
  /-- RSVD (R62, R106): `OP = 11`, the other 17 bits free. -/
  | rsvd (x : BitVec 17)
  /-- CHAR.PAD (R86): code 0x3D, `r = w[16:8]` reserved. -/
  | charPad (r : BitVec 9)
  /-- CHAR.ACCEPT 'A' (R89–R92): code 0x41, symbol value 0; `r = w[16:8]` reserved. -/
  | charAcceptA (r : BitVec 9)
  /-- CHAR.ACCEPT 'B' (R89–R92): code 0x42, symbol value 1; `r = w[16:8]` reserved. -/
  | charAcceptB (r : BitVec 9)
  /-- CHAR.ACCEPT 'C' (R89–R92): code 0x43, symbol value 2; `r = w[16:8]` reserved. -/
  | charAcceptC (r : BitVec 9)
  /-- CHAR.ACCEPT 'D' (R89–R92): code 0x44, symbol value 3; `r = w[16:8]` reserved. -/
  | charAcceptD (r : BitVec 9)
  /-- CHAR.ACCEPT 'E' (R89–R92): code 0x45, symbol value 4; `r = w[16:8]` reserved. -/
  | charAcceptE (r : BitVec 9)
  /-- CHAR.ACCEPT 'F' (R89–R92): code 0x46, symbol value 5; `r = w[16:8]` reserved. -/
  | charAcceptF (r : BitVec 9)
  /-- CHAR.ACCEPT 'G' (R89–R92): code 0x47, symbol value 6; `r = w[16:8]` reserved. -/
  | charAcceptG (r : BitVec 9)
  /-- CHAR.ACCEPT 'H' (R89–R92): code 0x48, symbol value 7; `r = w[16:8]` reserved. -/
  | charAcceptH (r : BitVec 9)
  /-- CHAR.ACCEPT 'I' (R89–R92): code 0x49, symbol value 8; `r = w[16:8]` reserved. -/
  | charAcceptI (r : BitVec 9)
  /-- CHAR.ACCEPT 'J' (R89–R92): code 0x4A, symbol value 9; `r = w[16:8]` reserved. -/
  | charAcceptJ (r : BitVec 9)
  /-- CHAR.ACCEPT 'K' (R89–R92): code 0x4B, symbol value 10; `r = w[16:8]` reserved. -/
  | charAcceptK (r : BitVec 9)
  /-- CHAR.ACCEPT 'L' (R89–R92): code 0x4C, symbol value 11; `r = w[16:8]` reserved. -/
  | charAcceptL (r : BitVec 9)
  /-- CHAR.ACCEPT 'M' (R89–R92): code 0x4D, symbol value 12; `r = w[16:8]` reserved. -/
  | charAcceptM (r : BitVec 9)
  /-- CHAR.ACCEPT 'N' (R89–R92): code 0x4E, symbol value 13; `r = w[16:8]` reserved. -/
  | charAcceptN (r : BitVec 9)
  /-- CHAR.ACCEPT 'O' (R89–R92): code 0x4F, symbol value 14; `r = w[16:8]` reserved. -/
  | charAcceptO (r : BitVec 9)
  /-- CHAR.ACCEPT 'P' (R89–R92): code 0x50, symbol value 15; `r = w[16:8]` reserved. -/
  | charAcceptP (r : BitVec 9)
  /-- CHAR.ACCEPT 'Q' (R89–R92): code 0x51, symbol value 16; `r = w[16:8]` reserved. -/
  | charAcceptQ (r : BitVec 9)
  /-- CHAR.ACCEPT 'R' (R89–R92): code 0x52, symbol value 17; `r = w[16:8]` reserved. -/
  | charAcceptR (r : BitVec 9)
  /-- CHAR.ACCEPT 'S' (R89–R92): code 0x53, symbol value 18; `r = w[16:8]` reserved. -/
  | charAcceptS (r : BitVec 9)
  /-- CHAR.ACCEPT 'T' (R89–R92): code 0x54, symbol value 19; `r = w[16:8]` reserved. -/
  | charAcceptT (r : BitVec 9)
  /-- CHAR.ACCEPT 'U' (R89–R92): code 0x55, symbol value 20; `r = w[16:8]` reserved. -/
  | charAcceptU (r : BitVec 9)
  /-- CHAR.ACCEPT 'V' (R89–R92): code 0x56, symbol value 21; `r = w[16:8]` reserved. -/
  | charAcceptV (r : BitVec 9)
  /-- CHAR.ACCEPT 'W' (R89–R92): code 0x57, symbol value 22; `r = w[16:8]` reserved. -/
  | charAcceptW (r : BitVec 9)
  /-- CHAR.ACCEPT 'X' (R89–R92): code 0x58, symbol value 23; `r = w[16:8]` reserved. -/
  | charAcceptX (r : BitVec 9)
  /-- CHAR.ACCEPT 'Y' (R89–R92): code 0x59, symbol value 24; `r = w[16:8]` reserved. -/
  | charAcceptY (r : BitVec 9)
  /-- CHAR.ACCEPT 'Z' (R89–R92): code 0x5A, symbol value 25; `r = w[16:8]` reserved. -/
  | charAcceptZ (r : BitVec 9)
  /-- CHAR.ACCEPT '2' (R89–R92): code 0x32, symbol value 26; `r = w[16:8]` reserved. -/
  | charAccept2 (r : BitVec 9)
  /-- CHAR.ACCEPT '3' (R89–R92): code 0x33, symbol value 27; `r = w[16:8]` reserved. -/
  | charAccept3 (r : BitVec 9)
  /-- CHAR.ACCEPT '4' (R89–R92): code 0x34, symbol value 28; `r = w[16:8]` reserved. -/
  | charAccept4 (r : BitVec 9)
  /-- CHAR.ACCEPT '5' (R89–R92): code 0x35, symbol value 29; `r = w[16:8]` reserved. -/
  | charAccept5 (r : BitVec 9)
  /-- CHAR.ACCEPT '6' (R89–R92): code 0x36, symbol value 30; `r = w[16:8]` reserved. -/
  | charAccept6 (r : BitVec 9)
  /-- CHAR.ACCEPT '7' (R89–R92): code 0x37, symbol value 31; `r = w[16:8]` reserved. -/
  | charAccept7 (r : BitVec 9)
  /-- CHAR.SKIP (R87, R88): any other code `c = w[7:0]`; `r = w[16:8]` reserved. -/
  | charSkip (r : BitVec 9) (c : CharCode)
deriving DecidableEq, Repr

end Sys2Proof
end

