-- ==== Sys2Proof/WellFormed.lean ====
section
/-! DEFINITION. Which terms of Instr are commands. The one condition is the CHAR.SKIP row's own: its code is one that no
earlier CHAR row matches (30_encoding.md R68 row 6; opcode_table.json: "applies only when no earlier CHAR row
matches"). The ranges are those of R68 rows 4 and 5, written out, not read from the lookup ROM. -/

namespace Sys2Proof

/-- The code of an alphabet character, by the ranges of R68 row 5: 0x41..0x5A or 0x32..0x37. -/
def isAlphabetCode (c : CharCode) : Bool :=
  (0x41#8 ≤ c && c ≤ 0x5A#8) || (0x32#8 ≤ c && c ≤ 0x37#8)

/-- The code belongs to the CHAR.SKIP row: neither `=` (R68 row 4) nor an alphabet character (row 5). -/
def isSkipCode (c : CharCode) : Bool :=
  c != 0x3D#8 && !isAlphabetCode c

/-- A term of Instr that some command word decodes to. -/
def Instr.wellFormed : Instr → Bool
  | .start _ _ => true
  | .endInput _ => true
  | .rsvd _ => true
  | .charPad _ => true
  | .charAcceptA _ => true
  | .charAcceptB _ => true
  | .charAcceptC _ => true
  | .charAcceptD _ => true
  | .charAcceptE _ => true
  | .charAcceptF _ => true
  | .charAcceptG _ => true
  | .charAcceptH _ => true
  | .charAcceptI _ => true
  | .charAcceptJ _ => true
  | .charAcceptK _ => true
  | .charAcceptL _ => true
  | .charAcceptM _ => true
  | .charAcceptN _ => true
  | .charAcceptO _ => true
  | .charAcceptP _ => true
  | .charAcceptQ _ => true
  | .charAcceptR _ => true
  | .charAcceptS _ => true
  | .charAcceptT _ => true
  | .charAcceptU _ => true
  | .charAcceptV _ => true
  | .charAcceptW _ => true
  | .charAcceptX _ => true
  | .charAcceptY _ => true
  | .charAcceptZ _ => true
  | .charAccept2 _ => true
  | .charAccept3 _ => true
  | .charAccept4 _ => true
  | .charAccept5 _ => true
  | .charAccept6 _ => true
  | .charAccept7 _ => true
  | .charSkip _ c => isSkipCode c

end Sys2Proof
end

