-- ==== Sys2Proof/Decode.lean ====
section
/-! DEFINITION. Decoding and encoding of command words (30_encoding.md R57–R69), and the opcode table's rows. Decoding is
total on 19-bit words (R69): every word is a command, the reserved ones too, and none is refused. -/

namespace Sys2Proof

/-- `OP = w[18:17]` (R57). -/
def cmdOp (w : CmdWord) : BitVec 2 := w.extractLsb' 17 2
/-- `S = w[16]` (R57). -/
def cmdS (w : CmdWord) : Bool := w.getLsbD 16
/-- `CAPV = P[15:0] = w[15:0]` of START (R61). -/
def cmdCapv (w : CmdWord) : Cap := w.extractLsb' 0 16
/-- `C = P[7:0] = w[7:0]` of CHAR (R59). -/
def cmdC (w : CmdWord) : CharCode := w.extractLsb' 0 8
/-- `w[16:8]`, reserved in CHAR (R59, R64). -/
def cmdCharRsv (w : CmdWord) : BitVec 9 := w.extractLsb' 8 9
/-- `w[16:0]`, reserved in END and free in RSVD (R60, R62). -/
def cmdLow17 (w : CmdWord) : BitVec 17 := w.extractLsb' 0 17

/-- The CHAR row of a character code (R68 rows 4 to 6, checked in that order). -/
def decodeChar (r : BitVec 9) (c : CharCode) : Instr :=
  if c = 0x3D#8 then .charPad r
  else if c = 0x41#8 then .charAcceptA r
  else if c = 0x42#8 then .charAcceptB r
  else if c = 0x43#8 then .charAcceptC r
  else if c = 0x44#8 then .charAcceptD r
  else if c = 0x45#8 then .charAcceptE r
  else if c = 0x46#8 then .charAcceptF r
  else if c = 0x47#8 then .charAcceptG r
  else if c = 0x48#8 then .charAcceptH r
  else if c = 0x49#8 then .charAcceptI r
  else if c = 0x4A#8 then .charAcceptJ r
  else if c = 0x4B#8 then .charAcceptK r
  else if c = 0x4C#8 then .charAcceptL r
  else if c = 0x4D#8 then .charAcceptM r
  else if c = 0x4E#8 then .charAcceptN r
  else if c = 0x4F#8 then .charAcceptO r
  else if c = 0x50#8 then .charAcceptP r
  else if c = 0x51#8 then .charAcceptQ r
  else if c = 0x52#8 then .charAcceptR r
  else if c = 0x53#8 then .charAcceptS r
  else if c = 0x54#8 then .charAcceptT r
  else if c = 0x55#8 then .charAcceptU r
  else if c = 0x56#8 then .charAcceptV r
  else if c = 0x57#8 then .charAcceptW r
  else if c = 0x58#8 then .charAcceptX r
  else if c = 0x59#8 then .charAcceptY r
  else if c = 0x5A#8 then .charAcceptZ r
  else if c = 0x32#8 then .charAccept2 r
  else if c = 0x33#8 then .charAccept3 r
  else if c = 0x34#8 then .charAccept4 r
  else if c = 0x35#8 then .charAccept5 r
  else if c = 0x36#8 then .charAccept6 r
  else if c = 0x37#8 then .charAccept7 r
  else .charSkip r c

/-- The command a word stands for, by `OP` alone (R58). -/
def decode (w : CmdWord) : Instr :=
  match cmdOp w with
  | 0b10#2 => .start (cmdS w) (cmdCapv w)
  | 0b01#2 => .endInput (cmdLow17 w)
  | 0b11#2 => .rsvd (cmdLow17 w)
  | _ => decodeChar (cmdCharRsv w) (cmdC w)

/-- What the port `cmd` carries of a number of `nbits` bits: its low 19 bits, since the port has no more (10_state.md R28,
log entry 9). -/
def portWord (nbits w : Nat) : CmdWord := BitVec.ofNat 19 (w % 2 ^ nbits)

/-- The host's view of the decoder: an instruction of `nbits` bits with value `w`, every higher bit 0. It never refuses, as
decoding is total (R69). -/
def decodeTableWord (nbits w : Nat) : Option Instr := some (decode (portWord nbits w))

/-- The word of a CHAR command: `OP = 00`, the reserved bits and the code (R59). -/
def charWord (r : BitVec 9) (c : CharCode) : CmdWord := 0b00#2 ++ r ++ c

/-- The command word of an instruction (R59–R62), reserved bits as the term holds them. -/
def encode : Instr → CmdWord
  | .start s capv => 0b10#2 ++ BitVec.ofBool s ++ capv
  | .endInput r => 0b01#2 ++ r
  | .rsvd x => 0b11#2 ++ x
  | .charPad r => charWord r 0x3D#8
  | .charAcceptA r => charWord r 0x41#8
  | .charAcceptB r => charWord r 0x42#8
  | .charAcceptC r => charWord r 0x43#8
  | .charAcceptD r => charWord r 0x44#8
  | .charAcceptE r => charWord r 0x45#8
  | .charAcceptF r => charWord r 0x46#8
  | .charAcceptG r => charWord r 0x47#8
  | .charAcceptH r => charWord r 0x48#8
  | .charAcceptI r => charWord r 0x49#8
  | .charAcceptJ r => charWord r 0x4A#8
  | .charAcceptK r => charWord r 0x4B#8
  | .charAcceptL r => charWord r 0x4C#8
  | .charAcceptM r => charWord r 0x4D#8
  | .charAcceptN r => charWord r 0x4E#8
  | .charAcceptO r => charWord r 0x4F#8
  | .charAcceptP r => charWord r 0x50#8
  | .charAcceptQ r => charWord r 0x51#8
  | .charAcceptR r => charWord r 0x52#8
  | .charAcceptS r => charWord r 0x53#8
  | .charAcceptT r => charWord r 0x54#8
  | .charAcceptU r => charWord r 0x55#8
  | .charAcceptV r => charWord r 0x56#8
  | .charAcceptW r => charWord r 0x57#8
  | .charAcceptX r => charWord r 0x58#8
  | .charAcceptY r => charWord r 0x59#8
  | .charAcceptZ r => charWord r 0x5A#8
  | .charAccept2 r => charWord r 0x32#8
  | .charAccept3 r => charWord r 0x33#8
  | .charAccept4 r => charWord r 0x34#8
  | .charAccept5 r => charWord r 0x35#8
  | .charAccept6 r => charWord r 0x36#8
  | .charAccept7 r => charWord r 0x37#8
  | .charSkip r c => charWord r c

/-- The character code of a CHAR command, by its row of opcode_table.json; none for the other commands. -/
def Instr.charCode : Instr → Option CharCode
  | .start _ _ => none
  | .endInput _ => none
  | .rsvd _ => none
  | .charPad _ => some 0x3D#8
  | .charAcceptA _ => some 0x41#8
  | .charAcceptB _ => some 0x42#8
  | .charAcceptC _ => some 0x43#8
  | .charAcceptD _ => some 0x44#8
  | .charAcceptE _ => some 0x45#8
  | .charAcceptF _ => some 0x46#8
  | .charAcceptG _ => some 0x47#8
  | .charAcceptH _ => some 0x48#8
  | .charAcceptI _ => some 0x49#8
  | .charAcceptJ _ => some 0x4A#8
  | .charAcceptK _ => some 0x4B#8
  | .charAcceptL _ => some 0x4C#8
  | .charAcceptM _ => some 0x4D#8
  | .charAcceptN _ => some 0x4E#8
  | .charAcceptO _ => some 0x4F#8
  | .charAcceptP _ => some 0x50#8
  | .charAcceptQ _ => some 0x51#8
  | .charAcceptR _ => some 0x52#8
  | .charAcceptS _ => some 0x53#8
  | .charAcceptT _ => some 0x54#8
  | .charAcceptU _ => some 0x55#8
  | .charAcceptV _ => some 0x56#8
  | .charAcceptW _ => some 0x57#8
  | .charAcceptX _ => some 0x58#8
  | .charAcceptY _ => some 0x59#8
  | .charAcceptZ _ => some 0x5A#8
  | .charAccept2 _ => some 0x32#8
  | .charAccept3 _ => some 0x33#8
  | .charAccept4 _ => some 0x34#8
  | .charAccept5 _ => some 0x35#8
  | .charAccept6 _ => some 0x36#8
  | .charAccept7 _ => some 0x37#8
  | .charSkip _ c => some c

/-- The symbol value of a CHAR.ACCEPT command: the column "VAL" of its row of opcode_table.json, not read from the
lookup ROM; none for every other command. -/
def Instr.acceptVal : Instr → Option Sym
  | .start _ _ => none
  | .endInput _ => none
  | .rsvd _ => none
  | .charPad _ => none
  | .charAcceptA _ => some 0#5
  | .charAcceptB _ => some 1#5
  | .charAcceptC _ => some 2#5
  | .charAcceptD _ => some 3#5
  | .charAcceptE _ => some 4#5
  | .charAcceptF _ => some 5#5
  | .charAcceptG _ => some 6#5
  | .charAcceptH _ => some 7#5
  | .charAcceptI _ => some 8#5
  | .charAcceptJ _ => some 9#5
  | .charAcceptK _ => some 10#5
  | .charAcceptL _ => some 11#5
  | .charAcceptM _ => some 12#5
  | .charAcceptN _ => some 13#5
  | .charAcceptO _ => some 14#5
  | .charAcceptP _ => some 15#5
  | .charAcceptQ _ => some 16#5
  | .charAcceptR _ => some 17#5
  | .charAcceptS _ => some 18#5
  | .charAcceptT _ => some 19#5
  | .charAcceptU _ => some 20#5
  | .charAcceptV _ => some 21#5
  | .charAcceptW _ => some 22#5
  | .charAcceptX _ => some 23#5
  | .charAcceptY _ => some 24#5
  | .charAcceptZ _ => some 25#5
  | .charAccept2 _ => some 26#5
  | .charAccept3 _ => some 27#5
  | .charAccept4 _ => some 28#5
  | .charAccept5 _ => some 29#5
  | .charAccept6 _ => some 30#5
  | .charAccept7 _ => some 31#5
  | .charSkip _ _ => none

/-- The mnemonic of an instruction's row of opcode_table.json, letter for letter. -/
def Instr.mnemonic : Instr → String
  | .start _ _ => "START"
  | .endInput _ => "END"
  | .rsvd _ => "RSVD"
  | .charPad _ => "CHAR.PAD"
  | .charAcceptA _ => "CHAR.ACCEPT__A"
  | .charAcceptB _ => "CHAR.ACCEPT__B"
  | .charAcceptC _ => "CHAR.ACCEPT__C"
  | .charAcceptD _ => "CHAR.ACCEPT__D"
  | .charAcceptE _ => "CHAR.ACCEPT__E"
  | .charAcceptF _ => "CHAR.ACCEPT__F"
  | .charAcceptG _ => "CHAR.ACCEPT__G"
  | .charAcceptH _ => "CHAR.ACCEPT__H"
  | .charAcceptI _ => "CHAR.ACCEPT__I"
  | .charAcceptJ _ => "CHAR.ACCEPT__J"
  | .charAcceptK _ => "CHAR.ACCEPT__K"
  | .charAcceptL _ => "CHAR.ACCEPT__L"
  | .charAcceptM _ => "CHAR.ACCEPT__M"
  | .charAcceptN _ => "CHAR.ACCEPT__N"
  | .charAcceptO _ => "CHAR.ACCEPT__O"
  | .charAcceptP _ => "CHAR.ACCEPT__P"
  | .charAcceptQ _ => "CHAR.ACCEPT__Q"
  | .charAcceptR _ => "CHAR.ACCEPT__R"
  | .charAcceptS _ => "CHAR.ACCEPT__S"
  | .charAcceptT _ => "CHAR.ACCEPT__T"
  | .charAcceptU _ => "CHAR.ACCEPT__U"
  | .charAcceptV _ => "CHAR.ACCEPT__V"
  | .charAcceptW _ => "CHAR.ACCEPT__W"
  | .charAcceptX _ => "CHAR.ACCEPT__X"
  | .charAcceptY _ => "CHAR.ACCEPT__Y"
  | .charAcceptZ _ => "CHAR.ACCEPT__Z"
  | .charAccept2 _ => "CHAR.ACCEPT__2"
  | .charAccept3 _ => "CHAR.ACCEPT__3"
  | .charAccept4 _ => "CHAR.ACCEPT__4"
  | .charAccept5 _ => "CHAR.ACCEPT__5"
  | .charAccept6 _ => "CHAR.ACCEPT__6"
  | .charAccept7 _ => "CHAR.ACCEPT__7"
  | .charSkip _ _ => "CHAR.SKIP"

/-- A row of opcode_table.json: the words `w` with `w &&& mask = pattern`. -/
structure OpRow where
  mnemonic : String
  pattern : CmdWord
  mask : CmdWord
deriving DecidableEq, Repr

/-- The rows before the CHAR.ACCEPT ones. -/
def opcodeRowsControl : List OpRow :=
  [⟨"START", 0x40000#19, 0x60000#19⟩, ⟨"END", 0x20000#19, 0x60000#19⟩, ⟨"RSVD", 0x60000#19, 0x60000#19⟩,
   ⟨"CHAR.PAD", 0x0003D#19, 0x600FF#19⟩]

/-- The 32 CHAR.ACCEPT rows. -/
def opcodeRowsAccept : List OpRow :=
  [⟨"CHAR.ACCEPT__A", 0x00041#19, 0x600FF#19⟩, ⟨"CHAR.ACCEPT__B", 0x00042#19, 0x600FF#19⟩,
   ⟨"CHAR.ACCEPT__C", 0x00043#19, 0x600FF#19⟩, ⟨"CHAR.ACCEPT__D", 0x00044#19, 0x600FF#19⟩,
   ⟨"CHAR.ACCEPT__E", 0x00045#19, 0x600FF#19⟩, ⟨"CHAR.ACCEPT__F", 0x00046#19, 0x600FF#19⟩,
   ⟨"CHAR.ACCEPT__G", 0x00047#19, 0x600FF#19⟩, ⟨"CHAR.ACCEPT__H", 0x00048#19, 0x600FF#19⟩,
   ⟨"CHAR.ACCEPT__I", 0x00049#19, 0x600FF#19⟩, ⟨"CHAR.ACCEPT__J", 0x0004A#19, 0x600FF#19⟩,
   ⟨"CHAR.ACCEPT__K", 0x0004B#19, 0x600FF#19⟩, ⟨"CHAR.ACCEPT__L", 0x0004C#19, 0x600FF#19⟩,
   ⟨"CHAR.ACCEPT__M", 0x0004D#19, 0x600FF#19⟩, ⟨"CHAR.ACCEPT__N", 0x0004E#19, 0x600FF#19⟩,
   ⟨"CHAR.ACCEPT__O", 0x0004F#19, 0x600FF#19⟩, ⟨"CHAR.ACCEPT__P", 0x00050#19, 0x600FF#19⟩,
   ⟨"CHAR.ACCEPT__Q", 0x00051#19, 0x600FF#19⟩, ⟨"CHAR.ACCEPT__R", 0x00052#19, 0x600FF#19⟩,
   ⟨"CHAR.ACCEPT__S", 0x00053#19, 0x600FF#19⟩, ⟨"CHAR.ACCEPT__T", 0x00054#19, 0x600FF#19⟩,
   ⟨"CHAR.ACCEPT__U", 0x00055#19, 0x600FF#19⟩, ⟨"CHAR.ACCEPT__V", 0x00056#19, 0x600FF#19⟩,
   ⟨"CHAR.ACCEPT__W", 0x00057#19, 0x600FF#19⟩, ⟨"CHAR.ACCEPT__X", 0x00058#19, 0x600FF#19⟩,
   ⟨"CHAR.ACCEPT__Y", 0x00059#19, 0x600FF#19⟩, ⟨"CHAR.ACCEPT__Z", 0x0005A#19, 0x600FF#19⟩,
   ⟨"CHAR.ACCEPT__2", 0x00032#19, 0x600FF#19⟩, ⟨"CHAR.ACCEPT__3", 0x00033#19, 0x600FF#19⟩,
   ⟨"CHAR.ACCEPT__4", 0x00034#19, 0x600FF#19⟩, ⟨"CHAR.ACCEPT__5", 0x00035#19, 0x600FF#19⟩,
   ⟨"CHAR.ACCEPT__6", 0x00036#19, 0x600FF#19⟩, ⟨"CHAR.ACCEPT__7", 0x00037#19, 0x600FF#19⟩]

/-- opcode_table.json, in its order; the first row that matches a word is the word's row (R68). -/
def opcodeTable : List OpRow :=
  opcodeRowsControl ++ opcodeRowsAccept ++ [⟨"CHAR.SKIP", 0x00000#19, 0x60000#19⟩]

/-- The word lies in the row. -/
def OpRow.covers (row : OpRow) (w : CmdWord) : Bool := w &&& row.mask == row.pattern

/-- The row of a word: the first of the table that covers it (R68). -/
def rowOf (w : CmdWord) : Option OpRow := opcodeTable.find? (·.covers w)

end Sys2Proof
end

