-- ==== Sys2Proof/Machine/Lookup.lean ====
section
/-! DEFINITION. The character lookup ROM (40_lookup.md R73–R82): 256 constant entries of 7 bits, read combinationally. It is
the block's one address space (20_memory.md R41), never written (R42), the same in every decode (R82). -/

namespace Sys2Proof.Machine

/-- The code of a character: its ASCII code (30_encoding.md R66). For a character that is not ASCII, to which R66 gives no
code, it is the low 8 bits of the code point, DESIGN CHOICE (log entry 18); no character of the alphabet is one. -/
def charCodeOf (ch : Char) : CharCode := BitVec.ofNat 8 ch.toNat

/-- `PAD_CHAR`, the padding character `=` (00_scope.md R7). -/
def padChar : CharCode := charCodeOf '='

/-- `ALPHABET`: the 32 characters in the order of their values (R7). -/
def alphabet : List Char :=
  ['A', 'B', 'C', 'D', 'E', 'F', 'G', 'H', 'I', 'J', 'K', 'L', 'M', 'N', 'O', 'P',
   'Q', 'R', 'S', 'T', 'U', 'V', 'W', 'X', 'Y', 'Z', '2', '3', '4', '5', '6', '7']

/-- The position k with `code(ALPHABET[k]) = c`, if there is one (R74); it is unique, as the characters are distinct. -/
def alphabetIndex (c : CharCode) : Option Nat := (alphabet.map charCodeOf).idxOf? c

/-- The entry of the padding character: PADF = 1 (R65, R77). -/
def entryPad : RomEntry := 0b1000000#7

/-- The entry of an alphabet character of value v: HIT = 1, VAL = v (R65). -/
def entryHit (v : Sym) : RomEntry := 0b01#2 ++ v

/-- The entry of every other code (R65, R78). -/
def entryInvalid : RomEntry := 0#7

/-- `ROMRead(c)` (R74). The index is all 8 bits: codes 0x80 and above are entries of their own, all invalid (R78). -/
def romRead (c : CharCode) : RomEntry :=
  if c = padChar then entryPad
  else
    match alphabetIndex c with
    | some k => entryHit (BitVec.ofNat 5 k)
    | none => entryInvalid

end Sys2Proof.Machine
end

