-- ==== Sys2Proof/Machine/Operands.lean ====
section
/-! DEFINITION. The operands a CHAR takes from its ROM entry (30_encoding.md R65, R67), and the bit selections of the
accumulator (41_char.md R85). The operands in the command word itself (R63) are taken by the decoder: no sign
extension, no scaling. -/

namespace Sys2Proof.Machine

/-- `PADF`, bit 6 of an entry: the padding character (R65). -/
def entryPadf (e : RomEntry) : Bool := e.getLsbD 6
/-- `HIT`, bit 5 of an entry: an alphabet character (R65). -/
def entryIsHit (e : RomEntry) : Bool := e.getLsbD 5
/-- `VAL`, bits 4:0 of an entry: the symbol value (R65). -/
def entryVal (e : RomEntry) : Sym := e.extractLsb' 0 5

/-- The class of a character (R67); it depends on the code only. -/
inductive CharClass where
  | pad
  | accept (v : Sym)
  | skip
deriving DecidableEq, Repr

/-- CHAR's second decode, through the ROM entry: padding first, then the alphabet (R67, R81). -/
def classOf (c : CharCode) : CharClass :=
  if entryPadf (romRead c) then .pad
  else if entryIsHit (romRead c) then .accept (entryVal (romRead c))
  else .skip

/-- `t = trunc_13((ACC << 5) | zext_13(v))` (R85, R89): stale bits leave at the top (R33). -/
def shiftIn (acc : Acc) (v : Sym) : Acc := (acc <<< 5) ||| v.setWidth 13

/-- `n = zext_5(CNT) + 5`, exact (R85, R93). -/
def heldAfter (cnt : Count) : Nat := cnt.toNat + 5

/-- `t[n-1 : n-8]`, the 8 most significant of the n held bits (R85, R90). -/
def topByte (t : Acc) (n : Nat) : OutByte := t.extractLsb' (n - 8) 8

end Sys2Proof.Machine
end

