-- ==== Sys2Proof/Machine/State.lean ====
section
/-! DEFINITION. The state of B32DEC (10_state.md R16–R27, R40), the reasons a step can stop, and the state after reset (R35,
70_reset_and_hazards.md R128). The lookup ROM is a constant and no part of the state (R27); there is no memory,
register file or program counter (R16, R17, R43). -/

namespace Sys2Proof.Machine

/-- What the host drives on the input ports at one rising edge of `clk` (R28, R40). Both controls are Bool and the
command is 19 bits, so an input that is not 0 or 1 cannot be written (R138, log entry 10). -/
structure EdgeInput where
  /-- `rst`: synchronous reset, active high (R127). -/
  rst : Bool
  /-- `cmd_valid`: `cmd` carries a command at this edge. -/
  cmdValid : Bool
  /-- `cmd`: the command word (R57); not looked at while `cmdValid` is false or `rst` is true. -/
  cmd : CmdWord
deriving DecidableEq, Repr

/-- The state record of R40: exactly its nine fields, with its types, and nothing else (R16). -/
structure Registers where
  /-- PHASE (R18): true = ACTIVE, false = STOPPED. -/
  phase : Bool
  /-- REASON (R19): why the last decode stopped. -/
  reason : ReasonCode
  /-- ACC (R20): the accumulator; its low CNT bits are pending, the rest stale (R33). -/
  acc : Acc
  /-- CNT (R21): the held-bit count. -/
  cnt : Count
  /-- NOUT (R22): bytes written in the current decode. -/
  nout : Cap
  /-- CAP (R23): the output capacity in bytes. -/
  cap : Cap
  /-- STRICT (R24): false = lenient, true = strict. -/
  strict : Bool
  /-- OVALID (R25): an output byte is presented this cycle. -/
  ovalid : Bool
  /-- OBYTE (R26): the last byte emitted. -/
  obyte : OutByte
deriving DecidableEq, Repr

/-- What one step of the model works on: the block's record (R40), and beside it the inputs of a run (R139), which R40 lists
apart from the record and the host's interface gives a step no other place for. -/
structure State extends Registers where
  /-- THE MODEL'S OWN, DESIGN CHOICE (log entry 1): the per-edge inputs the host will drive, first edge first (R139). No
  register of B32DEC; the head is what the next edge samples, and no edge depends on the rest. -/
  inputs : List EdgeInput
deriving DecidableEq, Repr

/-- Why a step stops. -/
inductive Fault where
  /-- CNT is 8 or more when a CHAR.ACCEPT reads it in ACTIVE. Raised by the 32 CHAR.ACCEPT meanings. The spec calls these
  values unreachable (R21, R94) and has a model fault on them (93_implementation_defined.md row 9, log entry 4). Safe. -/
  | cntOutOfRange
deriving DecidableEq, Repr

/-- Why a step has no meaning. -/
inductive Refusal where
  /-- An instruction without a meaning, rejected by name in Dispatch.lean. Raised by no arm: every command has its meaning.
  Safe. -/
  | notModelled (mnemonic : String)
deriving DecidableEq, Repr

/-- The state after an edge with `rst = 1` (R35, R128), with no input to come (log entries 1 and 3). -/
def State.reset : State where
  phase := false
  reason := 0#3
  acc := 0#13
  cnt := 0#4
  nout := 0#16
  cap := 0#16
  strict := false
  ovalid := false
  obyte := 0x00#8
  inputs := []

end Sys2Proof.Machine
end

