-- ==== Sys2Proof/Machine/Flags.lean ====
section
/-! DEFINITION. The flags of B32DEC: PHASE, REASON and OVALID (10_state.md R34), the reason codes (60_exceptions.md R112), the
output ports (R30) and the status view (R31, R113). There are no condition codes (R34). -/

namespace Sys2Proof.Machine

/-- The four ways a decode stops (R111). -/
inductive StopReason where
  /-- A padding character (41_char.md R86). -/
  | pad
  /-- The END command (42_control.md R103). -/
  | endOfInput
  /-- A byte would be written with NOUT = CAP (R92, R115). -/
  | overflow
  /-- An invalid character in strict mode (R88, R116). -/
  | invalid
deriving DecidableEq, Repr

/-- REASON 0: reset, or a decode in progress (R112). -/
def reasonNone : ReasonCode := 0#3

/-- The code a stop writes to REASON (R112). -/
def StopReason.code : StopReason → ReasonCode
  | .pad => 1#3
  | .endOfInput => 2#3
  | .overflow => 3#3
  | .invalid => 4#3

/-- The output ports (R30). -/
structure Ports where
  outValid : Bool
  outByte : OutByte
  active : Bool
  reason : ReasonCode
  nout : Cap
deriving DecidableEq, Repr

/-- Each output port is driven directly by its register (R30); ACC, CNT, CAP and STRICT are on no port (R39). -/
def State.ports (s : State) : Ports where
  outValid := s.ovalid
  outByte := s.obyte
  active := s.phase
  reason := s.reason
  nout := s.nout

/-- The decode has succeeded: `active = 0` and `reason` is PAD or END (R31, R113). -/
def State.succeeded (s : State) : Bool :=
  !s.phase && (s.reason == StopReason.pad.code || s.reason == StopReason.endOfInput.code)

/-- The decode has failed: `reason` is OVERFLOW or INVALID (R31, R113). -/
def State.failed (s : State) : Bool :=
  !s.phase && (s.reason == StopReason.overflow.code || s.reason == StopReason.invalid.code)

end Sys2Proof.Machine
end

