-- ==== Sys2Proof/Machine/Ops.lean ====
section
/-! DEFINITION. The named operations over the registers. Each reads the registers before the edge and gives them after it
(00_scope.md R11). `stop` is the one shared way a decode ends (60_exceptions.md R111): B32DEC has no trap to take and
none to return from (R114, R119); `beginDecode` and `resetState` are the only ways out of STOPPED (R120). -/

namespace Sys2Proof.Machine

/-- `OVALID <- 0`, the default of every edge with `rst = 0` (10_state.md R29); an emission overrides it (R11). -/
def clearValid (s : State) : State := { s with ovalid := false }

/-- `ResetState()` (70_reset_and_hazards.md R128, 10_state.md R35). The host's inputs still to come are no register. -/
def resetState (s : State) : State :=
  { s with
    phase := false
    reason := reasonNone
    acc := 0#13
    cnt := 0#4
    nout := 0#16
    cap := 0#16
    strict := false
    ovalid := false
    obyte := 0x00#8 }

/-- `Stop(r)`: `PHASE <- STOPPED; REASON <- r`, and nothing else (00_scope.md R12, 60_exceptions.md R111). -/
def stop (r : StopReason) (s : State) : State := { s with phase := false, reason := r.code }

/-- START's writes (42_control.md R99); OBYTE is kept. -/
def beginDecode (strict : Bool) (capv : Cap) (s : State) : State :=
  { s with
    phase := true
    reason := reasonNone
    acc := 0#13
    cnt := 0#4
    nout := 0#16
    cap := capv
    strict := strict }

/-- `Emit(NOUT, b); OBYTE <- b; OVALID <- 1; NOUT <- NOUT + 1` (41_char.md R85, R90). The sum is written to 16 bits
(00_scope.md R10); with NOUT < CAP it does not wrap (R93, log entry 8). -/
def emit (b : OutByte) (s : State) : State :=
  { s with obyte := b, ovalid := true, nout := s.nout + 1#16 }

/-- `ACC <- t; CNT <- trunc_4(n)` (41_char.md R85). -/
def hold (t : Acc) (n : Nat) (s : State) : State := { s with acc := t, cnt := BitVec.ofNat 4 n }

/-- What the next edge samples (10_state.md R28), taken off the host's list. A list with nothing left reads as an idle
edge, DESIGN CHOICE (log entry 2). -/
def sampleInputs (s : State) : EdgeInput × State :=
  match s.inputs with
  | [] => (⟨false, false, 0#19⟩, s)
  | e :: rest => (e, { s with inputs := rest })

/-- Put a command before the host's other inputs, so that the next edge accepts it. -/
def presentCommand (w : CmdWord) (s : State) : State :=
  { s with inputs := ⟨false, true, w⟩ :: s.inputs }

end Sys2Proof.Machine
end

