-- ==== Sys2Proof/Machine/CharCmd.lean ====
section
/-! DEFINITION. The CHAR command, one edge's pseudocode (41_char.md R85), shared by the 34 CHAR rows. OVALID's default
(10_state.md R29) is written first; no branch reads OVALID (log entry 13). -/

namespace Sys2Proof.Machine

/-- The shift-in of an accepted symbol and what follows it (R89, R90, R92): the lines of R85 from `v <- e[4:0]` on.
CNT above 7 is a fault (93_implementation_defined.md row 9, log entry 4): `t[n-1 : n-8]` would read bits that the
13-bit t need not have. -/
def acceptSymbol (v : Sym) (s : State) : Host.Outcome State Fault Refusal :=
  let t := shiftIn s.acc v
  let n := heldAfter s.cnt
  if 8 ≤ s.cnt.toNat then .fault .cntOutOfRange
  else if 8 ≤ n then
    if s.nout = s.cap then .next (stop .overflow s)
    else .next (hold t (n - 8) (emit (topByte t n) s))
  else .next (hold t n s)

/-- CHAR in ACTIVE, by the class of the character (R85, R86–R88; the order is R117's). -/
def charActive (c : CharCode) (s : State) : Host.Outcome State Fault Refusal :=
  match classOf c with
  | .pad => .next (stop .pad s)
  | .skip => if s.strict then .next (stop .invalid s) else .next s
  | .accept v => acceptSymbol v s

/-- CHAR (R85); in STOPPED it is taken and discarded (R84). -/
def charCmd (c : CharCode) (s : State) : Host.Outcome State Fault Refusal :=
  if s.phase then charActive c (clearValid s) else .next (clearValid s)

end Sys2Proof.Machine
end

