-- ==== Sys2Proof/Machine/Accept.lean ====
section
/-! DEFINITION. The meanings of the 32 CHAR.ACCEPT commands (41_char.md R89–R92): each is the CHAR command (R85) on its own
character code, whatever the reserved bits (30_encoding.md R64). The code goes through the lookup ROM like any
other (R83), which gives the symbol value. -/

namespace Sys2Proof.Machine

/-- CHAR.ACCEPT 'A': code 0x41, value 0 (R89–R92; 40_lookup.md R79). -/
def execCharAcceptA (_r : BitVec 9) (s : State) : Host.Outcome State Fault Refusal :=
  charCmd 0x41#8 s

/-- CHAR.ACCEPT 'B': code 0x42, value 1 (R89–R92; 40_lookup.md R79). -/
def execCharAcceptB (_r : BitVec 9) (s : State) : Host.Outcome State Fault Refusal :=
  charCmd 0x42#8 s

/-- CHAR.ACCEPT 'C': code 0x43, value 2 (R89–R92; 40_lookup.md R79). -/
def execCharAcceptC (_r : BitVec 9) (s : State) : Host.Outcome State Fault Refusal :=
  charCmd 0x43#8 s

/-- CHAR.ACCEPT 'D': code 0x44, value 3 (R89–R92; 40_lookup.md R79). -/
def execCharAcceptD (_r : BitVec 9) (s : State) : Host.Outcome State Fault Refusal :=
  charCmd 0x44#8 s

/-- CHAR.ACCEPT 'E': code 0x45, value 4 (R89–R92; 40_lookup.md R79). -/
def execCharAcceptE (_r : BitVec 9) (s : State) : Host.Outcome State Fault Refusal :=
  charCmd 0x45#8 s

/-- CHAR.ACCEPT 'F': code 0x46, value 5 (R89–R92; 40_lookup.md R79). -/
def execCharAcceptF (_r : BitVec 9) (s : State) : Host.Outcome State Fault Refusal :=
  charCmd 0x46#8 s

/-- CHAR.ACCEPT 'G': code 0x47, value 6 (R89–R92; 40_lookup.md R79). -/
def execCharAcceptG (_r : BitVec 9) (s : State) : Host.Outcome State Fault Refusal :=
  charCmd 0x47#8 s

/-- CHAR.ACCEPT 'H': code 0x48, value 7 (R89–R92; 40_lookup.md R79). -/
def execCharAcceptH (_r : BitVec 9) (s : State) : Host.Outcome State Fault Refusal :=
  charCmd 0x48#8 s

/-- CHAR.ACCEPT 'I': code 0x49, value 8 (R89–R92; 40_lookup.md R79). -/
def execCharAcceptI (_r : BitVec 9) (s : State) : Host.Outcome State Fault Refusal :=
  charCmd 0x49#8 s

/-- CHAR.ACCEPT 'J': code 0x4A, value 9 (R89–R92; 40_lookup.md R79). -/
def execCharAcceptJ (_r : BitVec 9) (s : State) : Host.Outcome State Fault Refusal :=
  charCmd 0x4A#8 s

/-- CHAR.ACCEPT 'K': code 0x4B, value 10 (R89–R92; 40_lookup.md R79). -/
def execCharAcceptK (_r : BitVec 9) (s : State) : Host.Outcome State Fault Refusal :=
  charCmd 0x4B#8 s

/-- CHAR.ACCEPT 'L': code 0x4C, value 11 (R89–R92; 40_lookup.md R79). -/
def execCharAcceptL (_r : BitVec 9) (s : State) : Host.Outcome State Fault Refusal :=
  charCmd 0x4C#8 s

/-- CHAR.ACCEPT 'M': code 0x4D, value 12 (R89–R92; 40_lookup.md R79). -/
def execCharAcceptM (_r : BitVec 9) (s : State) : Host.Outcome State Fault Refusal :=
  charCmd 0x4D#8 s

/-- CHAR.ACCEPT 'N': code 0x4E, value 13 (R89–R92; 40_lookup.md R79). -/
def execCharAcceptN (_r : BitVec 9) (s : State) : Host.Outcome State Fault Refusal :=
  charCmd 0x4E#8 s

/-- CHAR.ACCEPT 'O': code 0x4F, value 14 (R89–R92; 40_lookup.md R79). -/
def execCharAcceptO (_r : BitVec 9) (s : State) : Host.Outcome State Fault Refusal :=
  charCmd 0x4F#8 s

/-- CHAR.ACCEPT 'P': code 0x50, value 15 (R89–R92; 40_lookup.md R79). -/
def execCharAcceptP (_r : BitVec 9) (s : State) : Host.Outcome State Fault Refusal :=
  charCmd 0x50#8 s

/-- CHAR.ACCEPT 'Q': code 0x51, value 16 (R89–R92; 40_lookup.md R79). -/
def execCharAcceptQ (_r : BitVec 9) (s : State) : Host.Outcome State Fault Refusal :=
  charCmd 0x51#8 s

/-- CHAR.ACCEPT 'R': code 0x52, value 17 (R89–R92; 40_lookup.md R79). -/
def execCharAcceptR (_r : BitVec 9) (s : State) : Host.Outcome State Fault Refusal :=
  charCmd 0x52#8 s

/-- CHAR.ACCEPT 'S': code 0x53, value 18 (R89–R92; 40_lookup.md R79). -/
def execCharAcceptS (_r : BitVec 9) (s : State) : Host.Outcome State Fault Refusal :=
  charCmd 0x53#8 s

/-- CHAR.ACCEPT 'T': code 0x54, value 19 (R89–R92; 40_lookup.md R79). -/
def execCharAcceptT (_r : BitVec 9) (s : State) : Host.Outcome State Fault Refusal :=
  charCmd 0x54#8 s

/-- CHAR.ACCEPT 'U': code 0x55, value 20 (R89–R92; 40_lookup.md R79). -/
def execCharAcceptU (_r : BitVec 9) (s : State) : Host.Outcome State Fault Refusal :=
  charCmd 0x55#8 s

/-- CHAR.ACCEPT 'V': code 0x56, value 21 (R89–R92; 40_lookup.md R79). -/
def execCharAcceptV (_r : BitVec 9) (s : State) : Host.Outcome State Fault Refusal :=
  charCmd 0x56#8 s

/-- CHAR.ACCEPT 'W': code 0x57, value 22 (R89–R92; 40_lookup.md R79). -/
def execCharAcceptW (_r : BitVec 9) (s : State) : Host.Outcome State Fault Refusal :=
  charCmd 0x57#8 s

/-- CHAR.ACCEPT 'X': code 0x58, value 23 (R89–R92; 40_lookup.md R79). -/
def execCharAcceptX (_r : BitVec 9) (s : State) : Host.Outcome State Fault Refusal :=
  charCmd 0x58#8 s

/-- CHAR.ACCEPT 'Y': code 0x59, value 24 (R89–R92; 40_lookup.md R79). -/
def execCharAcceptY (_r : BitVec 9) (s : State) : Host.Outcome State Fault Refusal :=
  charCmd 0x59#8 s

/-- CHAR.ACCEPT 'Z': code 0x5A, value 25 (R89–R92; 40_lookup.md R79). -/
def execCharAcceptZ (_r : BitVec 9) (s : State) : Host.Outcome State Fault Refusal :=
  charCmd 0x5A#8 s

/-- CHAR.ACCEPT '2': code 0x32, value 26 (R89–R92; 40_lookup.md R79). -/
def execCharAccept2 (_r : BitVec 9) (s : State) : Host.Outcome State Fault Refusal :=
  charCmd 0x32#8 s

/-- CHAR.ACCEPT '3': code 0x33, value 27 (R89–R92; 40_lookup.md R79). -/
def execCharAccept3 (_r : BitVec 9) (s : State) : Host.Outcome State Fault Refusal :=
  charCmd 0x33#8 s

/-- CHAR.ACCEPT '4': code 0x34, value 28 (R89–R92; 40_lookup.md R79). -/
def execCharAccept4 (_r : BitVec 9) (s : State) : Host.Outcome State Fault Refusal :=
  charCmd 0x34#8 s

/-- CHAR.ACCEPT '5': code 0x35, value 29 (R89–R92; 40_lookup.md R79). -/
def execCharAccept5 (_r : BitVec 9) (s : State) : Host.Outcome State Fault Refusal :=
  charCmd 0x35#8 s

/-- CHAR.ACCEPT '6': code 0x36, value 30 (R89–R92; 40_lookup.md R79). -/
def execCharAccept6 (_r : BitVec 9) (s : State) : Host.Outcome State Fault Refusal :=
  charCmd 0x36#8 s

/-- CHAR.ACCEPT '7': code 0x37, value 31 (R89–R92; 40_lookup.md R79). -/
def execCharAccept7 (_r : BitVec 9) (s : State) : Host.Outcome State Fault Refusal :=
  charCmd 0x37#8 s

end Sys2Proof.Machine
end

