-- ==== Sys2Proof/Machine/Char.lean ====
section
/-! DEFINITION. The meanings of CHAR.PAD and CHAR.SKIP (41_char.md R86–R88). Reserved bits are ignored (30_encoding.md R64). -/

namespace Sys2Proof.Machine

/-- CHAR.PAD: the code of `=` (R86). -/
def execCharPad (_r : BitVec 9) (s : State) : Host.Outcome State Fault Refusal :=
  charCmd 0x3D#8 s

/-- CHAR.SKIP: a code that is neither `=` nor in the alphabet (R87 lenient, R88 strict). The code goes through the lookup
ROM like any other; a term with another code is no decoded word (log entry 12). -/
def execCharSkip (_r : BitVec 9) (c : CharCode) (s : State) : Host.Outcome State Fault Refusal :=
  charCmd c s

end Sys2Proof.Machine
end

