-- ==== Sys2Proof/Machine/Control.lean ====
section
/-! DEFINITION. START, END, the reserved opcode, and the edge with no command (42_control.md R99–R107). -/

namespace Sys2Proof.Machine

/-- START (R99–R102): accepted in either phase; a running decode is abandoned (R101). -/
def execStart (strict : Bool) (capv : Cap) (s : State) : Host.Outcome State Fault Refusal :=
  .next (beginDecode strict capv (clearValid s))

/-- END (R103, R104): stops a running decode, and is discarded in STOPPED. Its 17 reserved bits are ignored (R64). -/
def execEndInput (_r : BitVec 17) (s : State) : Host.Outcome State Fault Refusal :=
  if s.phase then .next (stop .endOfInput (clearValid s)) else .next (clearValid s)

/-- RSVD (R106): no register changes but OVALID, in either phase. Modelled exactly (log entry 6). -/
def execRsvd (_x : BitVec 17) (s : State) : Host.Outcome State Fault Refusal :=
  .next (clearValid s)

/-- An edge with `rst = 0` and `cmd_valid = 0` (R107). -/
def idleEdge (s : State) : Host.Outcome State Fault Refusal :=
  .next (clearValid s)

end Sys2Proof.Machine
end

