-- ==== Sys2Proof/Machine/Dispatch.lean ====
section
/-! DEFINITION. What each command does: one arm per constructor of Instr, one direct call of its meaning. -/

namespace Sys2Proof.Machine

open Sys2Proof

def exec (i : Instr) (s : State) : Host.Outcome State Fault Refusal :=
  match i with
  | .start sb capv => Sys2Proof.Machine.execStart sb capv s
  | .endInput r => Sys2Proof.Machine.execEndInput r s
  | .rsvd x => Sys2Proof.Machine.execRsvd x s
  | .charPad r => Sys2Proof.Machine.execCharPad r s
  | .charAcceptA r => Sys2Proof.Machine.execCharAcceptA r s
  | .charAcceptB r => Sys2Proof.Machine.execCharAcceptB r s
  | .charAcceptC r => Sys2Proof.Machine.execCharAcceptC r s
  | .charAcceptD r => Sys2Proof.Machine.execCharAcceptD r s
  | .charAcceptE r => Sys2Proof.Machine.execCharAcceptE r s
  | .charAcceptF r => Sys2Proof.Machine.execCharAcceptF r s
  | .charAcceptG r => Sys2Proof.Machine.execCharAcceptG r s
  | .charAcceptH r => Sys2Proof.Machine.execCharAcceptH r s
  | .charAcceptI r => Sys2Proof.Machine.execCharAcceptI r s
  | .charAcceptJ r => Sys2Proof.Machine.execCharAcceptJ r s
  | .charAcceptK r => Sys2Proof.Machine.execCharAcceptK r s
  | .charAcceptL r => Sys2Proof.Machine.execCharAcceptL r s
  | .charAcceptM r => Sys2Proof.Machine.execCharAcceptM r s
  | .charAcceptN r => Sys2Proof.Machine.execCharAcceptN r s
  | .charAcceptO r => Sys2Proof.Machine.execCharAcceptO r s
  | .charAcceptP r => Sys2Proof.Machine.execCharAcceptP r s
  | .charAcceptQ r => Sys2Proof.Machine.execCharAcceptQ r s
  | .charAcceptR r => Sys2Proof.Machine.execCharAcceptR r s
  | .charAcceptS r => Sys2Proof.Machine.execCharAcceptS r s
  | .charAcceptT r => Sys2Proof.Machine.execCharAcceptT r s
  | .charAcceptU r => Sys2Proof.Machine.execCharAcceptU r s
  | .charAcceptV r => Sys2Proof.Machine.execCharAcceptV r s
  | .charAcceptW r => Sys2Proof.Machine.execCharAcceptW r s
  | .charAcceptX r => Sys2Proof.Machine.execCharAcceptX r s
  | .charAcceptY r => Sys2Proof.Machine.execCharAcceptY r s
  | .charAcceptZ r => Sys2Proof.Machine.execCharAcceptZ r s
  | .charAccept2 r => Sys2Proof.Machine.execCharAccept2 r s
  | .charAccept3 r => Sys2Proof.Machine.execCharAccept3 r s
  | .charAccept4 r => Sys2Proof.Machine.execCharAccept4 r s
  | .charAccept5 r => Sys2Proof.Machine.execCharAccept5 r s
  | .charAccept6 r => Sys2Proof.Machine.execCharAccept6 r s
  | .charAccept7 r => Sys2Proof.Machine.execCharAccept7 r s
  | .charSkip r c => Sys2Proof.Machine.execCharSkip r c s

end Sys2Proof.Machine
end

