-- ==== Sys2Proof/Machine/Edge.lean ====
section
/-! DEFINITION. One rising edge of `clk` (10_state.md R29): reset first (70_reset_and_hazards.md R129), then a command if one
is valid, else an idle edge. -/

namespace Sys2Proof.Machine

/-- `Execute(w)` (30_encoding.md R58): decode the word and do its command. -/
def execute (w : CmdWord) (s : State) : Host.Outcome State Fault Refusal :=
  exec (decode w) s

/-- The edge with inputs e (R29). `OVALID <- 0` stands in `exec`'s meanings and in `idleEdge` (log entry 13). -/
def edge (e : EdgeInput) (s : State) : Host.Outcome State Fault Refusal :=
  if e.rst then .next (resetState s)
  else if e.cmdValid then execute e.cmd s
  else idleEdge s

/-- The next edge: sample the inputs, then do the edge (R13, R28). -/
def nextEdge (s : State) : Host.Outcome State Fault Refusal :=
  edge (sampleInputs s).1 (sampleInputs s).2

end Sys2Proof.Machine
end

