-- ==== Sys2Proof/Machine/Step.lean ====
section
/-! DEFINITION. The step: one rising edge of `clk` (00_scope.md R13), and the placing of a command for the next one. -/

namespace Sys2Proof.Machine

/-- One rising edge (R13, R29). -/
def step (s : State) : Host.Outcome State Fault Refusal := nextEdge s

/-- `s` with the command presented at the next edge. B32DEC fetches nothing (10_state.md R17): the command port is where
a step finds its command (log entry 3). -/
def State.withFetchWord (s : State) (nbits w : Nat) : State := presentCommand (portWord nbits w) s

end Sys2Proof.Machine
end

