-- ==== Sys2Proof/Machine/Observe.lean ====
section
/-! DEFINITION. What the host sees and records (20_memory.md R44, 42_control.md R110, 70_reset_and_hazards.md R133, R139). None of
this is state of B32DEC: the host owns the output buffer (R43, R44). -/

namespace Sys2Proof.Machine

/-- The emission a state shows in the cycle after its edge: byte number i of the decode, and the byte (R44). `i` is NOUT
before the emission. -/
def State.presented (s : State) : Option (Nat × OutByte) :=
  if s.ovalid then some (s.nout.toNat - 1, s.obyte) else none

/-- The bytes a state presents in the cycle after its edge: OBYTE if the edge set OVALID, else none (R40). -/
def State.emitted (s : State) : List OutByte := if s.ovalid then [s.obyte] else []

/-- The observation of a run (R40): the sequence of OBYTE values at its steps that set OVALID, over the whole run and every
decode in it, and the final PHASE, REASON and NOUT. -/
structure Observation where
  bytes : List OutByte
  active : Bool
  reason : ReasonCode
  nout : Cap
deriving DecidableEq, Repr

/-- The observation of a run of `k` edges from s (R40, R139). -/
def observeRun : Nat → State → Host.Outcome Observation Fault Refusal
  | 0, s => .next ⟨[], s.phase, s.reason, s.nout⟩
  | k + 1, s =>
    match step s with
    | .next t =>
      match observeRun k t with
      | .next o => .next { o with bytes := t.emitted ++ o.bytes }
      | .fault r => .fault r
      | .refused r => .refused r
    | .fault r => .fault r
    | .refused r => .refused r

/-- What the host has stored of the current decode: byte i stands at index i (R133). -/
structure HostView where
  bytes : List OutByte
deriving DecidableEq, Repr

/-- Nothing stored. -/
def HostView.empty : HostView := ⟨[]⟩

/-- The edge begins a new decode, or ends the old one by reset (R99, R132): the count of this decode's bytes restarts. -/
def EdgeInput.restarts (e : EdgeInput) : Bool :=
  e.rst || (e.cmdValid && cmdOp e.cmd == 0b10#2)

/-- The host stores `out_byte` at the index of its count of earlier bytes, in each cycle with `out_valid = 1` (R133). It
misses none: a host duty (R134, log entry 11). The record is of the current decode; it begins anew at a START and, DESIGN
CHOICE, at a reset (log entry 17). The bytes of a whole run are `observeRun`'s. -/
def HostView.observe (h : HostView) (e : EdgeInput) (t : State) : HostView :=
  ⟨(if e.restarts then [] else h.bytes) ++ t.emitted⟩

/-- One edge of the block and the host beside it. -/
def observedStep (p : State × HostView) : Host.Outcome (State × HostView) Fault Refusal :=
  match step p.1 with
  | .next t => .next (t, p.2.observe (sampleInputs p.1).1 t)
  | .fault r => .fault r
  | .refused r => .refused r

/-- `k` edges of the block and the host beside it. -/
def observedRun : Nat → State × HostView → Host.Outcome (State × HostView) Fault Refusal
  | 0, p => .next p
  | k + 1, p =>
    match observedStep p with
    | .next q => observedRun k q
    | .fault r => .fault r
    | .refused r => .refused r

/-- The result of a decode: the pair (`nout`, `reason`) and the bytes presented since its START (R139). -/
structure Result where
  nout : Cap
  reason : ReasonCode
  bytes : List OutByte
deriving DecidableEq, Repr

/-- A decode has a result only in STOPPED with a reason of PAD, END, OVERFLOW or INVALID (R139). A decode still ACTIVE has
none, nor has a state with one of the codes 5 to 7 (93_implementation_defined.md rows 8 and 13, log entry 5). -/
def decodeResult (p : State × HostView) : Option Result :=
  if p.1.succeeded || p.1.failed then some ⟨p.1.nout, p.1.reason, p.2.bytes⟩ else none

end Sys2Proof.Machine
end

