-- ==== Sys2Proof/Machine/Assembler.lean ====
section
/-! DEFINITION. The host's notation: assembler lines (30_encoding.md R70), the pseudo-instructions (R71), and the software call
(R72). It makes the host's input list; it is no part of B32DEC. -/

namespace Sys2Proof.Machine

/-- One line of R70, and two lines that only 95_test_vectors.md writes: `RST`, the edge with `rst = 1` (P4, log entry 16),
and a CHAR with reserved bits set, `charBits`, as `CHAR 0x1FF4D` in 2.3 (log entry 20). -/
inductive AsmLine where
  | start (cap : Cap) (strict : Bool)
  | endInput
  | char (c : CharCode)
  /-- A CHAR word given by its bits 16:0, the reserved ones too (R59; 95_test_vectors.md 2.3, log entry 20). -/
  | charBits (x : BitVec 17)
  | rsvd (x : BitVec 17)
  | idle
  | rst
deriving DecidableEq, Repr

/-- The word of a line, by R70's column "word", and `charBits`' by R59 (`OP = 00`); none for the lines that carry no
command. -/
def AsmLine.word : AsmLine → Option CmdWord
  | .start cap false => some (0x40000#19 ||| cap.setWidth 19)
  | .start cap true => some (0x50000#19 ||| cap.setWidth 19)
  | .endInput => some 0x20000#19
  | .char c => some (0x00000#19 ||| c.setWidth 19)
  | .charBits x => some (0x00000#19 ||| x.setWidth 19)
  | .rsvd x => some (0x60000#19 ||| x.setWidth 19)
  | .idle => none
  | .rst => none

/-- The edge of a line: a command's, an idle edge (R107), or a reset edge (R127). -/
def AsmLine.edge (l : AsmLine) : EdgeInput :=
  match l.word with
  | some w => ⟨false, true, w⟩
  | none => ⟨l == .rst, false, 0#19⟩

/-- `STR "text"`: one CHAR per character, in order (R71). -/
def strLines (text : List CharCode) : List AsmLine := text.map .char

/-- `DECODE cap, "text"` (strict = false) and `DECODES cap, "text"` (strict = true) (R71). -/
def decodeLines (cap : Cap) (strict : Bool) (text : List CharCode) : List AsmLine :=
  .start cap strict :: (strLines text ++ [.endInput])

/-- The host's input list for some lines. -/
def asmEdges (ls : List AsmLine) : List EdgeInput := ls.map AsmLine.edge

/-- A capacity above 65535 cannot be encoded, and the host clamps it (R72). -/
def clampCapacity (capacity : Nat) : Cap := BitVec.ofNat 16 (min capacity 65535)

/-- The software call `decode(encoded, decoded, capacity)` on a block in state s (R72): run `DECODE capacity, encoded`
(or `DECODES`), all of its edges, and read the result. -/
def decodeCall (capacity : Nat) (strict : Bool) (encoded : List CharCode) (s : State) : Option Result :=
  let edges := asmEdges (decodeLines (clampCapacity capacity) strict encoded)
  match observedRun edges.length ({ s with inputs := edges }, .empty) with
  | .next p => decodeResult p
  | .fault _ => none
  | .refused _ => none

/-! The concrete text of a line (R70, R71): one command a line, `;` starts a comment, numbers decimal or 0x hex, any
number of spaces between the parts (log entry 16). Which forms of a number each mnemonic takes, where R70 is silent: log
entry 19. -/

/-- Drop leading spaces. -/
def skipBlanks (cs : List Char) : List Char := cs.dropWhile (· == ' ')

/-- Nothing is left of the line but a comment. -/
def atLineEnd (cs : List Char) : Bool :=
  match skipBlanks cs with
  | [] => true
  | c :: _ => c == ';'

/-- The rest of the text after a word that it begins with. -/
def stripWord : List Char → List Char → Option (List Char)
  | [], cs => some cs
  | _ :: _, [] => none
  | w :: ws, c :: cs => if w == c then stripWord ws cs else none

/-- The value of a hexadecimal digit; small letters are read too, DESIGN CHOICE (log entry 19). -/
def hexDigit (c : Char) : Option Nat :=
  if '0' ≤ c ∧ c ≤ '9' then some (c.toNat - 48)
  else if 'a' ≤ c ∧ c ≤ 'f' then some (c.toNat - 87)
  else if 'A' ≤ c ∧ c ≤ 'F' then some (c.toNat - 55)
  else none

/-- Digits of a base, with the value so far and whether a digit has been read. -/
def readDigits (base : Nat) : Nat → Bool → List Char → Option (Nat × List Char)
  | n, seen, [] => if seen then some (n, []) else none
  | n, seen, c :: cs =>
    match hexDigit c with
    | some d => if d < base then readDigits base (n * base + d) true cs else if seen then some (n, c :: cs) else none
    | none => if seen then some (n, c :: cs) else none

/-- A number, decimal or 0x hex (R70, of START's capacity), of one digit or more, DESIGN CHOICE (log entry 19). -/
def readNumber (cs : List Char) : Option (Nat × List Char) :=
  match stripWord "0x".toList (skipBlanks cs) with
  | some rest => readDigits 16 0 false rest
  | none => readDigits 10 0 false (skipBlanks cs)

/-- A capacity 0..65535 (R70). -/
def readCap (cs : List Char) : Option (Cap × List Char) :=
  (readNumber cs).bind fun p => if p.1 < 65536 then some (BitVec.ofNat 16 p.1, p.2) else none

/-- A comma between operands. -/
def readComma (cs : List Char) : Option (List Char) := stripWord ",".toList (skipBlanks cs)

/-- A quoted character is read if its code point is below 256, and stands for the code with that number. R9 and R66 give
codes to ASCII characters only: for code points 0x80 to 0xFF this is the model's DESIGN CHOICE (log entry 18). -/
def isQuotable (x : Char) : Bool := x.toNat < 256

/-- A quoted text: the characters up to the closing double quote, and the rest. Characters that are not ASCII: log
entry 18. -/
def readQuoted (cs : List Char) : Option (List CharCode × List Char) :=
  match skipBlanks cs with
  | [] => none
  | q :: rest =>
    if q.toNat == 34 then
      let text := rest.takeWhile (·.toNat != 34)
      if text.all isQuotable then
        match rest.drop text.length with
        | [] => none
        | _ :: after => some (text.map charCodeOf, after)
      else none
    else none

/-- The lines, if the text has come to its end. -/
def finishLine (ls : List AsmLine) (cs : List Char) : Option (List AsmLine) :=
  if atLineEnd cs then some ls else none

/-- The operands of START: a capacity, then perhaps `, strict`. -/
def parseStart (cs : List Char) : Option (List AsmLine) :=
  (readCap cs).bind fun p =>
    match readComma p.2 with
    | some rest => (stripWord "strict".toList (skipBlanks rest)).bind (finishLine [.start p.1 true])
    | none => finishLine [.start p.1 false] p.2

/-- The operand of CHAR: a character in single quotes, or a number in 0x hex (R70: `CHAR 0xNN`). A quoted character that is
not ASCII: log entry 18. Any count of hex digits is read, DESIGN CHOICE (log entry 19). A value below 256 is a code; one
from 256 to 0x1FFFF is bits 16:0 of the word, as in `CHAR 0x1FF4D` (95_test_vectors.md 2.3, log entry 20). -/
def parseChar (cs : List Char) : Option (List AsmLine) :=
  match skipBlanks cs with
  | q :: x :: q' :: rest =>
    if q.toNat == 39 && q'.toNat == 39 && isQuotable x then finishLine [.char (charCodeOf x)] rest
    else
      (stripWord "0x".toList (q :: x :: q' :: rest)).bind fun ds =>
        (readDigits 16 0 false ds).bind fun p =>
          if p.1 < 256 then finishLine [.char (BitVec.ofNat 8 p.1)] p.2
          else if p.1 < 2 ^ 17 then finishLine [.charBits (BitVec.ofNat 17 p.1)] p.2
          else none
  | _ => none

/-- The operand of RSVD: a reserved word, 0x60000 to 0x7FFFF (R70: `RSVD 0xNNNNN`). A hex number of any count of digits and
a decimal number are read too, DESIGN CHOICE (log entry 19). -/
def parseRsvd (cs : List Char) : Option (List AsmLine) :=
  (readNumber cs).bind fun p =>
    if 0x60000 ≤ p.1 ∧ p.1 ≤ 0x7FFFF then finishLine [.rsvd (BitVec.ofNat 17 p.1)] p.2 else none

/-- The operands of DECODE and DECODES. -/
def parseDecode (strict : Bool) (cs : List Char) : Option (List AsmLine) :=
  (readCap cs).bind fun p =>
    (readComma p.2).bind fun rest =>
      (readQuoted rest).bind fun q => finishLine (decodeLines p.1 strict q.1) q.2

/-- A word followed by a space: its operands. -/
def operandsOf (word : String) (cs : List Char) : Option (List Char) :=
  stripWord (word.toList ++ [' ']) cs

/-- The lines one line of assembler text stands for (R70, R71): none where the text is no line, and no lines for a blank
or comment line. -/
def parseLine (text : List Char) : Option (List AsmLine) :=
  let cs := skipBlanks text
  if atLineEnd cs then some []
  else if let some r := operandsOf "START" cs then parseStart r
  else if let some r := operandsOf "CHAR" cs then parseChar r
  else if let some r := operandsOf "RSVD" cs then parseRsvd r
  else if let some r := operandsOf "STR" cs then (readQuoted r).bind fun q => finishLine (strLines q.1) q.2
  else if let some r := operandsOf "DECODE" cs then parseDecode false r
  else if let some r := operandsOf "DECODES" cs then parseDecode true r
  else if let some r := stripWord "END".toList cs then finishLine [.endInput] r
  else if let some r := stripWord "IDLE".toList cs then finishLine [.idle] r
  else if let some r := stripWord "RST".toList cs then finishLine [.rst] r
  else none

end Sys2Proof.Machine
end

