-- ==== Sys2Proof/Safety.lean ====
section
/-! DEFINITION. What counts as a safe run of B32DEC, and the vocabulary of the claims: the invariants (41_char.md R94), the
stream law (R95), states that differ in stale bits only (10_state.md R33), and the result of a decode as a function of the
text (R96, 30_encoding.md R72). -/

namespace Sys2Proof.Machine

open Sys2Proof

/-- The invariants of R94: CNT ≤ 7, NOUT ≤ CAP, and REASON = NONE whenever PHASE = ACTIVE. -/
structure Inv (s : State) : Prop where
  cnt_le : s.cnt.toNat ≤ 7
  nout_le : s.nout.toNat ≤ s.cap.toNat
  reason_active : s.phase = true → s.reason = reasonNone

/-- More that every run keeps: the codes 5 to 7 are never in REASON (60_exceptions.md R112); STOPPED with NONE is the state
after reset (R130); an OVERFLOW stop has NOUT = CAP (R115); an INVALID stop is one of a strict decode (R116); the bits
taken in come five at a time (R95: 8·NOUT + CNT = 5k); and a byte is presented only with one counted and a decode
ACTIVE (R118). -/
structure Consistent (s : State) : Prop where
  reason_le : s.reason.toNat ≤ 4
  stopped_none : s.phase = false → s.reason = reasonNone → s = resetState s
  overflow_full : s.reason = StopReason.overflow.code → s.nout = s.cap
  invalid_strict : s.reason = StopReason.invalid.code → s.strict = true
  bits_by_five : (8 * s.nout.toNat + s.cnt.toNat) % 5 = 0
  presented_counted : s.ovalid = true → 1 ≤ s.nout.toNat ∧ s.phase = true

/-- The bit string of some symbol values as a number, the first in the high bits (R95: `B`). -/
def packed (vs : List Sym) : Nat := vs.foldl (fun b v => 32 * b + v.toNat) 0

/-- Byte i of the bit string: `(B >> (5k - 8(i+1))) mod 256` (R95). -/
def packedByte (vs : List Sym) (i : Nat) : OutByte :=
  BitVec.ofNat 8 (packed vs >>> (5 * vs.length - 8 * (i + 1)))

/-- The first n bytes of the bit string. -/
def packedBytes (vs : List Sym) (n : Nat) : List OutByte := (List.range n).map (packedByte vs)

/-- The registers of a decode that has taken in the symbols vs (R95). -/
structure Stream (vs : List Sym) (s : State) : Prop where
  nout_eq : s.nout.toNat = 5 * vs.length / 8
  cnt_eq : s.cnt.toNat = 5 * vs.length % 8
  acc_eq : s.acc.toNat = packed vs % 2 ^ 13

/-- The symbols of the current decode after the next edge: START and reset begin with none, an accepted CHAR.ACCEPT adds
its value, and an overflowing one adds nothing (R92, R95, R99). -/
def absorb (vs : List Sym) (s : State) : List Sym :=
  let e := (sampleInputs s).1
  if e.restarts then []
  else if e.cmdValid && s.phase then
    match (decode e.cmd).acceptVal with
    | some v => if 3 ≤ s.cnt.toNat ∧ s.nout = s.cap then vs else vs ++ [v]
    | none => vs
  else vs

/-- Do some commands one after another, with the bytes emitted on the way. -/
def runCommands : List Instr → State → Option (State × List OutByte)
  | [], s => some (s, [])
  | i :: is, s =>
    match exec i s with
    | .next t =>
      (runCommands is t).map fun p => (p.1, t.emitted ++ p.2)
    | .fault _ => none
    | .refused _ => none

/-- Two states that agree but for the stale bits of ACC, those at index CNT and above (R33). -/
structure SameButStale (s t : State) : Prop where
  rest : { s with acc := t.acc } = t
  pending : s.acc.toNat % 2 ^ s.cnt.toNat = t.acc.toNat % 2 ^ s.cnt.toNat

/-- The symbols a text gives a decode, and the reason it would end with if the buffer were large enough: up to the first
padding character, or in strict mode the first invalid character, or the end of the text (R86–R88, R103). -/
def scan (strict : Bool) : List CharCode → List Sym × StopReason
  | [] => ([], .endOfInput)
  | c :: cs =>
    match classOf c with
    | .pad => ([], .pad)
    | .skip => if strict then ([], .invalid) else scan strict cs
    | .accept v => (v :: (scan strict cs).1, (scan strict cs).2)

/-- The result of decoding a text, as the laws of 41_char.md give it (R95, R96): all of its whole bytes if they fit, and
otherwise the first CAP of them and OVERFLOW. -/
def textResult (cap : Cap) (strict : Bool) (text : List CharCode) : Result :=
  let vs := (scan strict text).1
  let n := 5 * vs.length / 8
  if n ≤ cap.toNat then ⟨BitVec.ofNat 16 n, (scan strict text).2.code, packedBytes vs n⟩
  else ⟨cap, StopReason.overflow.code, packedBytes vs cap.toNat⟩

end Sys2Proof.Machine
end

