-- ==== Sys2Proof/Certificates/Slice0/Obligations.lean ====
section
/-! DEFINITION. The statements about B32DEC for the provers; OBLIGATIONS.json lists them. A statement about every state holds in
states no run reaches too; where it needs an invariant, the invariant is its premise and is stated on its own. The 32
CHAR.ACCEPT constructors `charAcceptA` … `charAcceptZ`, `charAccept2` … `charAccept7` are those with
`i.acceptVal = some v`, v the value their row of the opcode table gives. -/

open Sys2Proof Sys2Proof.Machine

/-! ## Reset and the kinds of edge -/

/-- 10_state.md R35: the reset value of every register. -/
def Obligations.ResetStateHasSpecValues : Prop :=
  State.reset.phase = false ∧ State.reset.reason = 0#3 ∧ State.reset.acc = 0#13 ∧ State.reset.cnt = 0#4 ∧
  State.reset.nout = 0#16 ∧ State.reset.cap = 0#16 ∧ State.reset.strict = false ∧ State.reset.ovalid = false ∧
  State.reset.obyte = 0x00#8

/-- 70_reset_and_hazards.md R128, R129: from any state, an edge with `rst = 1` gives every register its reset value, and
the command presented at it is lost: the next state does not depend on `cmd_valid` and `cmd`. -/
def Obligations.ResetEdgeGivesResetValues : Prop :=
  ∀ (s : State) (e : EdgeInput) (rest : List EdgeInput), s.inputs = e :: rest → e.rst = true →
    step s = .next ⟨⟨false, 0#3, 0#13, 0#4, 0#16, 0#16, false, false, 0x00#8⟩, rest⟩

/-- 42_control.md R107: an idle edge writes OVALID only, and so do any number of them in a row. -/
def Obligations.IdleEdgesWriteOnlyValid : Prop :=
  (∀ (s : State) (e : EdgeInput) (rest : List EdgeInput), s.inputs = e :: rest → e.rst = false →
    e.cmdValid = false → step s = .next { s with ovalid := false, inputs := rest }) ∧
  (∀ (idles rest : List EdgeInput) (s : State), s.inputs = idles ++ rest → idles ≠ [] →
    (∀ e ∈ idles, e.rst = false ∧ e.cmdValid = false) →
    Host.Core.run Sys2Proof.core idles.length s = .next { s with ovalid := false, inputs := rest })

/-- The model's choice (log entry 2): with no input left on the host's list, the step is an idle edge. -/
def Obligations.ExhaustedInputsAreIdleEdges : Prop :=
  ∀ s : State, s.inputs = [] → step s = .next { s with ovalid := false }

/-- 10_state.md R29, 30_encoding.md R58: an edge with `rst = 0` and `cmd_valid = 1` does the command that the word decodes
to, on the registers as they are; the list of inputs is the model's (log entry 1). -/
def Obligations.StepRunsDecodedCommand : Prop :=
  ∀ (s : State) (w : CmdWord) (rest : List EdgeInput), s.inputs = ⟨false, true, w⟩ :: rest →
    step s = exec (decode w) { s with inputs := rest }

/-- The model's placing of a command (log entry 3): the very next step runs it. -/
def Obligations.PlacedCommandRunsNext : Prop :=
  ∀ (s : State) (nbits w : Nat),
    ∃ i, decodeTableWord nbits w = some i ∧ step (s.withFetchWord nbits w) = exec i s

/-! ## Encoding -/

/-- Some words written out from the spec's encodings decode to the commands they stand for. -/
def Obligations.KnownWordsDecode : Prop :=
  decode 0x50010#19 = .start true 16#16 ∧ decode 0x4FFFF#19 = .start false 0xFFFF#16 ∧
  decode 0x20000#19 = .endInput 0#17 ∧ decode 0x7FFFF#19 = .rsvd 0x1FFFF#17 ∧ decode 0x60000#19 = .rsvd 0#17 ∧
  decode 0x0003D#19 = .charPad 0#9 ∧ decode 0x00041#19 = .charAcceptA 0#9 ∧ decode 0x1FF4D#19 = .charAcceptM 0x1FF#9 ∧
  decode 0x00037#19 = .charAccept7 0#9 ∧ decode 0x00061#19 = .charSkip 0#9 0x61#8 ∧
  decode 0x000C1#19 = .charSkip 0#9 0xC1#8

/-- 30_encoding.md R58: the command is selected by `OP = w[18:17]` alone, with the operands the rule gives it. -/
def Obligations.OpcodeFieldSelectsCommand : Prop :=
  ∀ w : CmdWord,
    (w.extractLsb' 17 2 = 0b00#2 → (decode w).charCode = some (w.extractLsb' 0 8)) ∧
    (w.extractLsb' 17 2 = 0b01#2 → ∃ r, decode w = .endInput r) ∧
    (w.extractLsb' 17 2 = 0b10#2 → decode w = .start (w.getLsbD 16) (w.extractLsb' 0 16)) ∧
    (w.extractLsb' 17 2 = 0b11#2 → ∃ x, decode w = .rsvd x)

/-- 30_encoding.md R69: decoding is total. Each word's row, the first of the opcode table that covers it, exists and is the
row of the command that the word decodes to. -/
def Obligations.EveryWordSelectsItsRow : Prop :=
  ∀ w : CmdWord, ∃ row, rowOf w = some row ∧ row.mnemonic = (decode w).mnemonic

/-- Decoding the encoding of a well-formed command gives the command back, every operand and reserved bit at every value. -/
def Obligations.DecodeOfEncodeIsIdentity : Prop :=
  ∀ i : Instr, i.wellFormed = true → decode (encode i) = i

/-- Every word is the encoding of the command it decodes to, and that command is well-formed. -/
def Obligations.EncodeOfDecodeIsIdentity : Prop :=
  ∀ w : CmdWord, (decode w).wellFormed = true ∧ encode (decode w) = w

/-- 30_encoding.md R64: a CHAR or END word with reserved bits set does what the word with those bits 0 does. -/
def Obligations.ReservedBitsAreIgnored : Prop :=
  ∀ (w : CmdWord) (s : State),
    (w.extractLsb' 17 2 = 0b00#2 → exec (decode w) s = exec (decode (w &&& 0x000FF#19)) s) ∧
    (w.extractLsb' 17 2 = 0b01#2 → exec (decode w) s = exec (decode 0x20000#19) s)

/-- 30_encoding.md R70, the column "word": each assembler line's word decodes to the command of the line. The last clause is
of the CHAR line with reserved bits that 95_test_vectors.md 2.3 writes (log entry 20, no line of R70). -/
def Obligations.AssemblerWordsDecode : Prop :=
  (∀ (cap : Cap) (strict : Bool), (AsmLine.start cap strict).word.map decode = some (.start strict cap)) ∧
  AsmLine.endInput.word.map decode = some (.endInput 0#17) ∧
  (∀ c : CharCode, ((AsmLine.char c).word.map decode).bind Instr.charCode = some c) ∧
  (∀ x : BitVec 17, (AsmLine.rsvd x).word.map decode = some (.rsvd x)) ∧
  (∀ x : BitVec 17, (AsmLine.charBits x).word.map decode = some (decodeChar (x.extractLsb' 8 9) (x.extractLsb' 0 8)))

/-! ## The lookup ROM -/

/-- 40_lookup.md R79: the complete table, by ranges of the index. -/
def Obligations.RomHasTheTabledEntries : Prop :=
  ∀ c : CharCode,
    romRead c =
      if 0x32 ≤ c.toNat ∧ c.toNat ≤ 0x37 then BitVec.ofNat 7 (0x3A + (c.toNat - 0x32))
      else if c.toNat = 0x3D then 0x40#7
      else if 0x41 ≤ c.toNat ∧ c.toNat ≤ 0x5A then BitVec.ofNat 7 (0x20 + (c.toNat - 0x41))
      else 0x00#7

/-- 40_lookup.md R80: each of the 32 values belongs to exactly one code, and exactly one code is PAD. -/
def Obligations.RomIsABijectionOnTheAlphabet : Prop :=
  (∀ v : Sym, ∃ c : CharCode, romRead c = 0b01#2 ++ v ∧ ∀ c' : CharCode, romRead c' = 0b01#2 ++ v → c' = c) ∧
  (∀ c : CharCode, (romRead c).getLsbD 6 = true ↔ c = 0x3D#8)

/-- 30_encoding.md R65: exactly three entry shapes occur: no other does, PADF = HIT = 1 never does, and each of the three
does, the alphabet's for every value. -/
def Obligations.RomEntriesHaveThreeShapes : Prop :=
  (∀ c : CharCode,
    ¬((romRead c).getLsbD 6 = true ∧ (romRead c).getLsbD 5 = true) ∧
    ((∃ v : Sym, romRead c = 0b01#2 ++ v) ∨ romRead c = 0x40#7 ∨ romRead c = 0x00#7)) ∧
  (∀ v : Sym, ∃ c : CharCode, romRead c = 0b01#2 ++ v) ∧ (∃ c : CharCode, romRead c = 0x40#7) ∧
  (∃ c : CharCode, romRead c = 0x00#7)

/-- 40_lookup.md R78: the codes of the CHAR.SKIP row are those with entry 0x00, and there are 223 of them. -/
def Obligations.SkipRowHasTheInvalidCodes : Prop :=
  (∀ c : CharCode, isSkipCode c = true ↔ romRead c = 0x00#7) ∧
  ((List.range 256).filter fun n => isSkipCode (BitVec.ofNat 8 n)).length = 223

/-- Each CHAR.ACCEPT row's value is the VAL of its code's ROM entry, and the row of every code with HIT is a CHAR.ACCEPT
row (opcode_table.json against 40_lookup.md R79). -/
def Obligations.AcceptRowsCarryTheRomValue : Prop :=
  (∀ (i : Instr) (v : Sym), i.acceptVal = some v → ∃ c, i.charCode = some c ∧ romRead c = 0b01#2 ++ v) ∧
  (∀ (r : BitVec 9) (c : CharCode) (v : Sym), romRead c = 0b01#2 ++ v → (decodeChar r c).acceptVal = some v)

/-! ## CHAR -/

/-- 41_char.md R85 with R117's order: every CHAR command, in every state with CNT in its range, does what the pseudocode
says (`e` the ROM entry, `t` the shifted accumulator). -/
def Obligations.CharFollowsThePseudocode : Prop :=
  ∀ (i : Instr) (c : CharCode) (e : RomEntry) (t : Acc) (s : State), i.charCode = some c → s.cnt.toNat ≤ 7 →
    e = romRead c → t = (s.acc <<< 5) ||| (e.extractLsb' 0 5).setWidth 13 →
    exec i s =
      if s.phase = false then .next { s with ovalid := false }
      else if e.getLsbD 6 = true then .next { s with phase := false, reason := 1#3, ovalid := false }
      else if e.getLsbD 5 = false then
        if s.strict = true then .next { s with phase := false, reason := 4#3, ovalid := false }
        else .next { s with ovalid := false }
      else if 8 ≤ s.cnt.toNat + 5 then
        if s.nout = s.cap then .next { s with phase := false, reason := 3#3, ovalid := false }
        else
          .next
            { s with
              acc := t
              cnt := BitVec.ofNat 4 (s.cnt.toNat + 5 - 8)
              nout := s.nout + 1#16
              ovalid := true
              obyte := t.extractLsb' (s.cnt.toNat + 5 - 8) 8 }
      else .next { s with acc := t, cnt := BitVec.ofNat 4 (s.cnt.toNat + 5), ovalid := false }

/-- 41_char.md R84: in STOPPED, every CHAR command changes nothing but OVALID. -/
def Obligations.StoppedCharIsDiscarded : Prop :=
  ∀ (i : Instr) (c : CharCode) (s : State), i.charCode = some c → s.phase = false →
    exec i s = .next { s with ovalid := false }

/-- 41_char.md R86: CHAR.PAD in ACTIVE stops with reason PAD. -/
def Obligations.PadStopsTheDecode : Prop :=
  ∀ (r : BitVec 9) (s : State), s.phase = true →
    exec (.charPad r) s = .next { s with phase := false, reason := 1#3, ovalid := false }

/-- 41_char.md R87: CHAR.SKIP in a lenient decode writes nothing. -/
def Obligations.LenientSkipWritesNothing : Prop :=
  ∀ (r : BitVec 9) (c : CharCode) (s : State), romRead c = 0x00#7 → s.phase = true → s.strict = false →
    exec (.charSkip r c) s = .next { s with ovalid := false }

/-- 41_char.md R88: CHAR.SKIP in a strict decode stops with reason INVALID; padding still gives PAD. -/
def Obligations.StrictSkipStopsWithInvalid : Prop :=
  ∀ (r : BitVec 9) (c : CharCode) (s : State), s.phase = true → s.strict = true →
    (romRead c = 0x00#7 →
      exec (.charSkip r c) s = .next { s with phase := false, reason := 4#3, ovalid := false }) ∧
    exec (.charPad r) s = .next { s with phase := false, reason := 1#3, ovalid := false }

/-- 41_char.md R89: each of the 32 CHAR.ACCEPT commands, with fewer than 8 bits held after it, shifts its value in and
emits nothing, whatever NOUT and CAP are. -/
def Obligations.AcceptShiftsItsValueIn : Prop :=
  ∀ (i : Instr) (v : Sym) (s : State), i.acceptVal = some v → s.phase = true → s.cnt.toNat + 5 < 8 →
    exec i s = .next { s with acc := (s.acc <<< 5) ||| v.setWidth 13, cnt := s.cnt + 5#4, ovalid := false }

/-- 41_char.md R90: each of the 32 CHAR.ACCEPT commands that completes a byte, with NOUT ≠ CAP, emits the 8 most significant
of the held bits. -/
def Obligations.AcceptEmitsTheTopByte : Prop :=
  ∀ (i : Instr) (v : Sym) (t : Acc) (s : State), i.acceptVal = some v → s.phase = true → s.cnt.toNat ≤ 7 →
    8 ≤ s.cnt.toNat + 5 → s.nout ≠ s.cap → t = (s.acc <<< 5) ||| v.setWidth 13 →
    exec i s =
      .next
        { s with
          acc := t
          cnt := BitVec.ofNat 4 (s.cnt.toNat + 5 - 8)
          nout := s.nout + 1#16
          ovalid := true
          obyte := t.extractLsb' (s.cnt.toNat + 5 - 8) 8 }

/-- 41_char.md R92: each of the 32 CHAR.ACCEPT commands that completes a byte, with NOUT = CAP, stops with OVERFLOW and
absorbs nothing; one that completes no byte (even with NOUT = CAP) or finds NOUT ≠ CAP does not stop. -/
def Obligations.AcceptOverflowsOnlyWhenFull : Prop :=
  ∀ (i : Instr) (v : Sym) (s : State), i.acceptVal = some v → s.phase = true → s.cnt.toNat ≤ 7 →
    if 8 ≤ s.cnt.toNat + 5 ∧ s.nout = s.cap then
      exec i s = .next { s with phase := false, reason := 3#3, ovalid := false }
    else ∃ t, exec i s = .next t ∧ t.phase = true ∧ t.reason = s.reason

/-- 41_char.md R97, the table: for each CNT before, the CNT after, and the low index of the byte emitted, if one is. -/
def Obligations.AcceptOutcomeByHeldCount : Prop :=
  ∀ row ∈ [(0, 5, none), (1, 6, none), (2, 7, none), (3, 0, some 0), (4, 1, some 1), (5, 2, some 2), (6, 3, some 3),
      (7, 4, some 4)],
    ∀ (i : Instr) (v : Sym) (s : State), i.acceptVal = some v → s.phase = true → s.nout ≠ s.cap →
      s.cnt.toNat = row.1 →
      ∃ t, exec i s = .next t ∧ t.cnt.toNat = row.2.1 ∧
        match row.2.2 with
        | none => t.ovalid = false ∧ t.nout = s.nout
        | some lo =>
          t.ovalid = true ∧ t.nout = s.nout + 1#16 ∧
            t.obyte = ((s.acc <<< 5) ||| v.setWidth 13).extractLsb' lo 8

/-- 41_char.md R97: eight accepted characters from CNT = 0 give exactly five bytes and bring CNT back to 0. -/
def Obligations.EightSymbolsGiveFiveBytes : Prop :=
  ∀ (is : List Instr) (vs : List Sym) (s : State), is.map Instr.acceptVal = vs.map some → is.length = 8 →
    s.phase = true → s.cnt = 0#4 → s.nout.toNat + 5 ≤ s.cap.toNat →
    ∃ t bs, runCommands is s = some (t, bs) ∧ bs.length = 5 ∧ t.cnt = 0#4 ∧ t.nout.toNat = s.nout.toNat + 5 ∧
      t.phase = true

/-- The model's fault (log entry 4; 93_implementation_defined.md row 9): a CHAR.ACCEPT in ACTIVE with CNT of 8 to 15, values
that 10_state.md R21 calls unreachable. -/
def Obligations.UnreachableCountFaults : Prop :=
  ∀ (i : Instr) (v : Sym) (s : State), i.acceptVal = some v → s.phase = true → 8 ≤ s.cnt.toNat →
    exec i s = .fault .cntOutOfRange

/-! ## START, END, RSVD -/

/-- 42_control.md R99: START, in either phase. -/
def Obligations.StartBeginsAFreshDecode : Prop :=
  ∀ (strict : Bool) (capv : Cap) (s : State),
    exec (.start strict capv) s = .next ⟨⟨true, 0#3, 0#13, 0#4, 0#16, capv, strict, false, s.obyte⟩, s.inputs⟩

/-- 42_control.md R103: END in ACTIVE stops with reason END. -/
def Obligations.EndStopsTheDecode : Prop :=
  ∀ (r : BitVec 17) (s : State), s.phase = true →
    exec (.endInput r) s = .next { s with phase := false, reason := 2#3, ovalid := false }

/-- 42_control.md R104: END in STOPPED changes nothing but OVALID; the reason is kept. -/
def Obligations.StoppedEndIsDiscarded : Prop :=
  ∀ (r : BitVec 17) (s : State), s.phase = false → exec (.endInput r) s = .next { s with ovalid := false }

/-- 42_control.md R106: the reserved opcode changes nothing but OVALID, in either phase. -/
def Obligations.ReservedOpcodeIsANop : Prop :=
  ∀ (x : BitVec 17) (s : State), exec (.rsvd x) s = .next { s with ovalid := false }

/-! ## What the commands leave unchanged -/

/-- 10_state.md R32, as a frame over all commands: what a next state of a command other than START keeps. The decode's
registers ACC, CNT, NOUT and OBYTE change only by a CHAR.ACCEPT; CAP, STRICT and the inputs never. -/
def Obligations.CommandsKeepTheOtherRegisters : Prop :=
  ∀ (i : Instr) (s t : State), i.wellFormed = true → (∀ b capv, i ≠ .start b capv) → exec i s = .next t →
    t.cap = s.cap ∧ t.strict = s.strict ∧ t.inputs = s.inputs ∧
    (i.acceptVal = none →
      t.acc = s.acc ∧ t.cnt = s.cnt ∧ t.nout = s.nout ∧ t.obyte = s.obyte ∧ t.ovalid = false) ∧
    (t.phase = s.phase → t.reason = s.reason)

/-- 10_state.md R23: CAP is loaded by START, cleared by reset, and not otherwise written; R24 and 42_control.md R100: so is
STRICT, which cannot change until the next START or reset. -/
def Obligations.CapacityIsWrittenOnlyByStartAndReset : Prop :=
  ∀ (s t : State) (e : EdgeInput) (rest : List EdgeInput), s.inputs = e :: rest → step s = .next t →
    (t.cap, t.strict) =
      if e.rst = true then (0#16, false)
      else if e.cmdValid = true ∧ e.cmd.extractLsb' 17 2 = 0b10#2 then (e.cmd.extractLsb' 0 16, e.cmd.getLsbD 16)
      else (s.cap, s.strict)

/-- 10_state.md R26: OBYTE is written only by an emission and by reset. -/
def Obligations.OutputByteIsWrittenOnlyByEmission : Prop :=
  ∀ (s t : State) (e : EdgeInput) (rest : List EdgeInput), s.inputs = e :: rest → step s = .next t →
    (e.rst = true → t.obyte = 0x00#8) ∧ (e.rst = false → t.ovalid = false → t.obyte = s.obyte)

/-- 10_state.md R25: OVALID is 1 exactly after an edge that emitted a byte. -/
def Obligations.ValidExactlyAfterAnEmission : Prop :=
  ∀ (s t : State) (e : EdgeInput) (rest : List EdgeInput), s.inputs = e :: rest → step s = .next t →
    (t.ovalid = true ↔
      e.rst = false ∧ e.cmdValid = true ∧ s.phase = true ∧ 3 ≤ s.cnt.toNat ∧ s.nout ≠ s.cap ∧
        ∃ v, (decode e.cmd).acceptVal = some v)

/-- 41_char.md R91: a command other than START emits at most one byte, and NOUT counts it. -/
def Obligations.AtMostOneBytePerCommand : Prop :=
  ∀ (i : Instr) (s t : State), (∀ b capv, i ≠ .start b capv) → exec i s = .next t →
    (t.ovalid = true ∧ t.nout = s.nout + 1#16) ∨ (t.ovalid = false ∧ t.nout = s.nout)

/-- 42_control.md R100: the strict mode changes nothing but what an invalid character does. -/
def Obligations.StrictModeMattersOnlyToInvalidCharacters : Prop :=
  ∀ (i : Instr) (s t : State) (b : Bool), i.wellFormed = true → (∀ b capv, i ≠ .start b capv) →
    (∀ r c, i ≠ .charSkip r c) → exec i s = .next t →
    exec i { s with strict := b } = .next { t with strict := b }

/-! ## Stops -/

/-- 60_exceptions.md R111: a stop writes PHASE and REASON (and OVALID, by R29) and no other register; the four events, each
with its code; and a stop happens only in ACTIVE: a command in STOPPED that is not START keeps PHASE and REASON. -/
def Obligations.FourEventsStopADecode : Prop :=
  ∀ (i : Instr) (s t : State), i.wellFormed = true → exec i s = .next t →
    (s.phase = true → t.phase = false →
      t = { s with phase := false, reason := t.reason, ovalid := false } ∧
      ((∃ r, i = .charPad r ∧ t.reason = 1#3) ∨ (∃ r, i = .endInput r ∧ t.reason = 2#3) ∨
        (∃ v, i.acceptVal = some v ∧ 3 ≤ s.cnt.toNat ∧ s.nout = s.cap ∧ t.reason = 3#3) ∨
        (∃ r c, i = .charSkip r c ∧ s.strict = true ∧ t.reason = 4#3))) ∧
    (s.phase = false → (∀ b capv, i ≠ .start b capv) → t.phase = false ∧ t.reason = s.reason)

/-- 42_control.md R110, 60_exceptions.md R120: in STOPPED, an edge that is neither a START nor a reset changes nothing but
OVALID (and takes its input off the list), so the result stays on the ports. -/
def Obligations.ResultStaysUntilStartOrReset : Prop :=
  ∀ (s : State) (e : EdgeInput) (rest : List EdgeInput), s.inputs = e :: rest → s.phase = false →
    e.restarts = false → step s = .next { s with ovalid := false, inputs := rest }

/-- 60_exceptions.md R118: a stop and an emission never happen in the same edge. -/
def Obligations.NoEmissionAtAStop : Prop :=
  ∀ s t : State, step s = .next t → t.ovalid = true → s.phase = true ∧ t.phase = true ∧ t.reason = s.reason

/-- 20_memory.md R44, 60_exceptions.md R115: a byte is presented under the index NOUT had before the edge, and that index is
below CAP. -/
def Obligations.PresentedIndexIsBelowCapacity : Prop :=
  ∀ (s t : State) (k : Nat) (b : OutByte), Inv s → step s = .next t → t.presented = some (k, b) →
    k = s.nout.toNat ∧ k < t.cap.toNat ∧ b = t.obyte

/-- 10_state.md R31, 60_exceptions.md R113: a decode that has stopped has succeeded or failed, and not both. -/
def Obligations.AStopIsASuccessOrAFailure : Prop :=
  ∀ s : State, Consistent s → s.phase = false → s.reason ≠ 0#3 → s.succeeded = !s.failed

/-! ## Invariants -/

/-- 41_char.md R94: the invariants hold after a reset, whatever the host will send. -/
def Obligations.ResetMeetsTheInvariants : Prop :=
  ∀ inputs : List EdgeInput, Inv { State.reset with inputs := inputs } ∧ Consistent { State.reset with inputs := inputs }

/-- 41_char.md R94: every edge keeps CNT ≤ 7, NOUT ≤ CAP, and REASON = NONE while ACTIVE. -/
def Obligations.EveryEdgeKeepsTheInvariants : Prop :=
  ∀ s t : State, Inv s → step s = .next t → Inv t

/-- Every edge keeps the model's further invariants (Safety.lean: `Consistent`), drawn from R95, R112, R115, R116, R118 and
R130. -/
def Obligations.EveryEdgeKeepsConsistency : Prop :=
  ∀ s t : State, Inv s → Consistent s → step s = .next t → Consistent t

/-- No edge stops the machine: B32DEC has no trap (60_exceptions.md R114), and under the invariants the model has none
either. -/
def Obligations.NoEdgeFaultsUnderTheInvariants : Prop :=
  ∀ s : State, Inv s → ∃ t, step s = .next t

/-- From any state whatever, one reset edge and then any inputs: every run goes on and keeps the invariants
(10_state.md R36 asks for the one reset edge). -/
def Obligations.EveryRunAfterAResetEdgeGoesOn : Prop :=
  ∀ (k : Nat) (s : State) (e : EdgeInput) (rest : List EdgeInput), s.inputs = e :: rest → e.rst = true →
    ∃ t, Host.Core.run Sys2Proof.core (k + 1) s = .next t ∧ Inv t ∧ Consistent t

/-! ## Laws of a whole decode -/

/-- 10_state.md R33, 00_scope.md R8: no output depends on the stale bits of ACC. Two states that differ only in them step
to two states that differ only in them, with the same ports. -/
def Obligations.StaleBitsReachNoOutput : Prop :=
  ∀ s s' t : State, s.cnt.toNat ≤ 7 → SameButStale s s' → step s = .next t →
    ∃ t', step s' = .next t' ∧ SameButStale t t' ∧ t.ports = t'.ports

/-- 20_memory.md R44, 42_control.md R110: the host has as many bytes of the current decode as NOUT says, after every edge.
THE MODEL'S CHOICE in it: the host misses no byte (log entry 11), and its record begins anew at a reset (log entry 17,
DESIGN CHOICE), where R132 keeps the earlier bytes in the host's buffer. -/
def Obligations.HostHoldsNoutBytes : Prop :=
  ∀ (s : State) (h : HostView), Inv s → h.bytes.length = s.nout.toNat →
    ∃ t k, observedStep (s, h) = .next (t, k) ∧ k.bytes.length = t.nout.toNat

/-- 41_char.md R95, as an invariant of every edge, vs being the symbols that the current decode has accepted: NOUT, CNT and
ACC are those of the packed bit string, and the bytes delivered are its bytes. Edges of any kind may come between. THE
MODEL'S CHOICE in the clause on the bytes delivered: the host misses none (log entry 11), and its record begins anew at a
reset (log entry 17, DESIGN CHOICE), where R132 keeps the earlier bytes in the host's buffer. -/
def Obligations.StreamLawHoldsAfterEveryEdge : Prop :=
  ∀ (vs : List Sym) (s : State) (h : HostView), Inv s → Stream vs s → h.bytes = packedBytes vs s.nout.toNat →
    ∃ t k, observedStep (s, h) = .next (t, k) ∧ Stream (absorb vs s) t ∧
      k.bytes = packedBytes (absorb vs s) t.nout.toNat

/-- 30_encoding.md R72, 41_char.md R95, R96: the decode call, lenient or strict, from any state of the block, gives the
result that the laws give for the text: the first floor(5N/8) bytes of its packed symbols, or OVERFLOW with CAP bytes. -/
def Obligations.DecodeCallGivesTheTextsResult : Prop :=
  ∀ (capacity : Nat) (strict : Bool) (text : List CharCode) (s : State),
    decodeCall capacity strict text s = some (textResult (clampCapacity capacity) strict text)

/-- 41_char.md R96: floor(5N/8) is the least capacity that does not overflow, and then that many bytes are written. -/
def Obligations.LeastCapacityIsFiveEighths : Prop :=
  ∀ (capacity : Nat) (strict : Bool) (text : List CharCode) (s : State) (r : Result), capacity ≤ 65535 →
    decodeCall capacity strict text s = some r →
    (r.reason = 3#3 ↔ capacity < 5 * (scan strict text).1.length / 8) ∧
    (r.reason = 3#3 → r.nout.toNat = capacity) ∧
    (r.reason ≠ 3#3 → r.nout.toNat = 5 * (scan strict text).1.length / 8) ∧ r.bytes.length = r.nout.toNat

/-- 70_reset_and_hazards.md R141: a decode of an L-character text with END takes L + 2 edges. From any state with the
decode's edges as its inputs, they are L + 2 in number, and after as many steps the block is STOPPED with a result. -/
def Obligations.DecodeTakesLengthPlusTwoEdges : Prop :=
  ∀ (cap : Cap) (strict : Bool) (text : List CharCode) (s : State),
    s.inputs = asmEdges (decodeLines cap strict text) →
    s.inputs.length = text.length + 2 ∧
    ∃ t, Host.Core.run Sys2Proof.core (text.length + 2) s = .next t ∧ t.phase = false ∧ t.inputs = [] ∧
      (t.succeeded = true ∨ t.failed = true)

/-! ## The observation of a run -/

/-- 00_scope.md R13, 10_state.md R40: an edge is a function of the nine registers and the inputs sampled at it. Inputs still
to come (the model's own, log entry 1) change nothing of it and are kept. -/
def Obligations.EdgeDependsOnRegistersAndSampledInputs : Prop :=
  ∀ (e : EdgeInput) (s t : State) (later : List EdgeInput), edge e s = .next t →
    edge e { s with inputs := later } = .next { t with inputs := later }

/-- 42_control.md R107, 10_state.md R40: idle edges put anywhere into a run's inputs do not change its observation, that is
the sequence of bytes presented and the final PHASE, REASON and NOUT. -/
def Obligations.IdleEdgesDoNotChangeTheObservation : Prop :=
  ∀ (before idles after : List EdgeInput) (s : State), Inv s → (∀ e ∈ idles, e.rst = false ∧ e.cmdValid = false) →
    ∃ o, observeRun (before.length + after.length) { s with inputs := before ++ after } = .next o ∧
      observeRun (before.length + idles.length + after.length) { s with inputs := before ++ (idles ++ after) } = .next o

/-- 10_state.md R33, R40: two states that differ only in stale bits of ACC have the same observation of every run. -/
def Obligations.StaleBitsReachNoObservation : Prop :=
  ∀ (k : Nat) (s s' : State), s.cnt.toNat ≤ 7 → SameButStale s s' →
    ∃ o, observeRun k s = .next o ∧ observeRun k s' = .next o

/-- 10_state.md R40, 42_control.md R110: in a run whose inputs hold no START and no reset, the host's record of the decode
grows by the run's observed bytes (that it misses none: log entry 11), and the final registers are those observed. -/
def Obligations.HostRecordGrowsByTheObservedBytes : Prop :=
  ∀ (k : Nat) (s : State) (h : HostView), Inv s → (∀ e ∈ s.inputs, e.restarts = false) →
    ∃ t h' o, observedRun k (s, h) = .next (t, h') ∧ observeRun k s = .next o ∧ h'.bytes = h.bytes ++ o.bytes ∧
      o.active = t.phase ∧ o.reason = t.reason ∧ o.nout = t.nout
end

