-- ==== Sys2Proof/Laws/Decode.lean ====
section
/-! SUPPORT. The bits of the encoded words, and the row each encoding lies in. -/

namespace Sys2Proof

/-- The bits of a CHAR word: the code, the reserved bits, the opcode. -/
theorem getLsbD_charWord (r : BitVec 9) (c : CharCode) (i : Nat) :
    (charWord r c).getLsbD i = if i < 8 then c.getLsbD i else r.getLsbD (i - 8) := by
  have outer := BitVec.getLsbD_append (x := 0b00#2 ++ r) (y := c) (i := i)
  have inner := BitVec.getLsbD_append (x := 0b00#2) (y := r) (i := i - 8)
  refine outer.trans ?_
  split
  · rfl
  · refine inner.trans ?_
    split
    · rfl
    · rw [BitVec.getLsbD_of_ge r _ (by omega)]
      simp

/-- The bits of a word of an opcode and 17 more bits. -/
theorem getLsbD_opWord (op : BitVec 2) (x : BitVec 17) (i : Nat) :
    (op ++ x : CmdWord).getLsbD i = if i < 17 then x.getLsbD i else op.getLsbD (i - 17) :=
  BitVec.getLsbD_append (x := op) (y := x) (i := i)

/-- The bits of a START word. -/
theorem getLsbD_startWord (s : Bool) (capv : Cap) (i : Nat) :
    (encode (.start s capv)).getLsbD i =
      if i < 16 then capv.getLsbD i else if i = 16 then s else (0b10#2).getLsbD (i - 17) := by
  have outer := BitVec.getLsbD_append (x := 0b10#2 ++ BitVec.ofBool s) (y := capv) (i := i)
  have inner := BitVec.getLsbD_append (x := 0b10#2) (y := BitVec.ofBool s) (i := i - 16)
  refine outer.trans ?_
  split
  · rfl
  · refine inner.trans ?_
    by_cases h : i = 16
    · subst h; simp
    · rw [if_neg (by omega), if_neg h]
      congr 1

/-- The code mask keeps the code and the opcode of a CHAR word. -/
theorem charWord_and_codeMask (r : BitVec 9) (c : CharCode) :
    charWord r c &&& 0x600FF#19 = c.setWidth 19 := by
  apply BitVec.eq_of_getLsbD_eq
  intro i hi
  rw [BitVec.getLsbD_and, getLsbD_charWord]
  interval_cases i <;> simp

/-- The opcode mask keeps the opcode of a CHAR word. -/
theorem charWord_and_opMask (r : BitVec 9) (c : CharCode) : charWord r c &&& 0x60000#19 = 0#19 := by
  apply BitVec.eq_of_getLsbD_eq
  intro i hi
  rw [BitVec.getLsbD_and, getLsbD_charWord]
  interval_cases i <;> simp

/-- The opcode mask keeps the opcode of an END or RSVD word. -/
theorem opWord_and_opMask (op : BitVec 2) (x : BitVec 17) :
    (op ++ x : CmdWord) &&& 0x60000#19 = op.setWidth 19 <<< 17 := by
  apply BitVec.eq_of_getLsbD_eq
  intro i hi
  rw [BitVec.getLsbD_and, getLsbD_opWord]
  interval_cases i <;> simp

/-- The opcode mask keeps the opcode of a START word. -/
theorem startWord_and_opMask (s : Bool) (capv : Cap) :
    encode (.start s capv) &&& 0x60000#19 = 0x40000#19 := by
  apply BitVec.eq_of_getLsbD_eq
  intro i hi
  rw [BitVec.getLsbD_and, getLsbD_startWord]
  interval_cases i <;> simp

/-- A CHAR word lies in the row of its code. -/
theorem charWord_code_covers (m : String) (p : CmdWord) (r : BitVec 9) (c : CharCode) (h : c.setWidth 19 = p) :
    OpRow.covers ⟨m, p, 0x600FF#19⟩ (charWord r c) = true := by
  rw [OpRow.covers, charWord_and_codeMask, h, beq_self_eq_true]

/-- A CHAR word lies in the row of its opcode. -/
theorem charWord_op_covers (m : String) (r : BitVec 9) (c : CharCode) :
    OpRow.covers ⟨m, 0x00000#19, 0x60000#19⟩ (charWord r c) = true := by
  rw [OpRow.covers, charWord_and_opMask, beq_self_eq_true]

/-- An END or RSVD word lies in the row of its opcode. -/
theorem opWord_covers (m : String) (p : CmdWord) (op : BitVec 2) (x : BitVec 17)
    (h : op.setWidth 19 <<< 17 = p) : OpRow.covers ⟨m, p, 0x60000#19⟩ (op ++ x : CmdWord) = true := by
  rw [OpRow.covers, opWord_and_opMask, h, beq_self_eq_true]

/-- A START word lies in START's row. -/
theorem startWord_covers (m : String) (s : Bool) (capv : Cap) :
    OpRow.covers ⟨m, 0x40000#19, 0x60000#19⟩ (encode (.start s capv)) = true := by
  rw [OpRow.covers, startWord_and_opMask, beq_self_eq_true]

end Sys2Proof
end

