-- ==== Sys2Proof/Laws/Lookup.lean ====
section
/-! SUPPORT. What the lookup ROM gives, and the class of the code of each CHAR row. -/

namespace Sys2Proof.Machine

open Sys2Proof

/-- The class of the padding character. -/
theorem classOf_pad : classOf 0x3D#8 = .pad := by decide

/-- A code of the CHAR.SKIP row is of class skip. -/
theorem classOf_skip : ∀ c : CharCode, isSkipCode c = true → classOf c = .skip := by decide +kernel

/-- The codes of class pad: `=` only. -/
theorem eq_of_classOf_pad : ∀ c : CharCode, classOf c = .pad → c = 0x3D#8 := by decide +kernel

/-- The classes, read off a ROM entry. -/
theorem classOf_skip_iff : ∀ c : CharCode, classOf c = .skip ↔ romRead c = 0#7 := by decide +kernel

/-- The symbol value of a row is the one its code's ROM entry holds. -/
theorem charCode_of_acceptVal (i : Instr) (v : Sym) (h : i.acceptVal = some v) :
    ∃ c, i.charCode = some c ∧ classOf c = .accept v := by
  cases i <;> simp only [Instr.acceptVal, Option.some.injEq, reduceCtorEq] at h <;> subst h <;>
    exact ⟨_, rfl, by decide⟩

/-- A row of a well-formed CHAR whose code has a symbol value is an accepting row. -/
theorem acceptVal_of_class (i : Instr) (c : CharCode) (v : Sym) (hwf : i.wellFormed = true)
    (hc : i.charCode = some c) (hv : classOf c = .accept v) : i.acceptVal = some v := by
  cases i
  case charSkip r c' =>
    cases hc
    rw [classOf_skip _ hwf] at hv
    cases hv
  all_goals
    simp only [Instr.charCode, Option.some.injEq, reduceCtorEq] at hc
  all_goals
    subst hc
    simp only [Instr.acceptVal]
    revert v
    decide

end Sys2Proof.Machine
end

