-- ==== Sys2Proof/Laws/State.lean ====
section
/-! SUPPORT. One lemma per field per named update of the state (Machine/Ops.lean), so that no proof unfolds a record update. -/

namespace Sys2Proof.Machine

@[simp] theorem clearValid_phase (s : State) : (clearValid s).phase = s.phase := rfl
@[simp] theorem clearValid_reason (s : State) : (clearValid s).reason = s.reason := rfl
@[simp] theorem clearValid_acc (s : State) : (clearValid s).acc = s.acc := rfl
@[simp] theorem clearValid_cnt (s : State) : (clearValid s).cnt = s.cnt := rfl
@[simp] theorem clearValid_nout (s : State) : (clearValid s).nout = s.nout := rfl
@[simp] theorem clearValid_cap (s : State) : (clearValid s).cap = s.cap := rfl
@[simp] theorem clearValid_strict (s : State) : (clearValid s).strict = s.strict := rfl
@[simp] theorem clearValid_ovalid (s : State) : (clearValid s).ovalid = false := rfl
@[simp] theorem clearValid_obyte (s : State) : (clearValid s).obyte = s.obyte := rfl
@[simp] theorem clearValid_inputs (s : State) : (clearValid s).inputs = s.inputs := rfl

@[simp] theorem resetState_phase (s : State) : (resetState s).phase = false := rfl
@[simp] theorem resetState_reason (s : State) : (resetState s).reason = reasonNone := rfl
@[simp] theorem resetState_acc (s : State) : (resetState s).acc = 0#13 := rfl
@[simp] theorem resetState_cnt (s : State) : (resetState s).cnt = 0#4 := rfl
@[simp] theorem resetState_nout (s : State) : (resetState s).nout = 0#16 := rfl
@[simp] theorem resetState_cap (s : State) : (resetState s).cap = 0#16 := rfl
@[simp] theorem resetState_strict (s : State) : (resetState s).strict = false := rfl
@[simp] theorem resetState_ovalid (s : State) : (resetState s).ovalid = false := rfl
@[simp] theorem resetState_obyte (s : State) : (resetState s).obyte = 0#8 := rfl
@[simp] theorem resetState_inputs (s : State) : (resetState s).inputs = s.inputs := rfl

@[simp] theorem stop_phase (r : StopReason) (s : State) : (stop r s).phase = false := rfl
@[simp] theorem stop_reason (r : StopReason) (s : State) : (stop r s).reason = r.code := rfl
@[simp] theorem stop_acc (r : StopReason) (s : State) : (stop r s).acc = s.acc := rfl
@[simp] theorem stop_cnt (r : StopReason) (s : State) : (stop r s).cnt = s.cnt := rfl
@[simp] theorem stop_nout (r : StopReason) (s : State) : (stop r s).nout = s.nout := rfl
@[simp] theorem stop_cap (r : StopReason) (s : State) : (stop r s).cap = s.cap := rfl
@[simp] theorem stop_strict (r : StopReason) (s : State) : (stop r s).strict = s.strict := rfl
@[simp] theorem stop_ovalid (r : StopReason) (s : State) : (stop r s).ovalid = s.ovalid := rfl
@[simp] theorem stop_obyte (r : StopReason) (s : State) : (stop r s).obyte = s.obyte := rfl
@[simp] theorem stop_inputs (r : StopReason) (s : State) : (stop r s).inputs = s.inputs := rfl

@[simp] theorem beginDecode_phase (b : Bool) (c : Cap) (s : State) : (beginDecode b c s).phase = true := rfl
@[simp] theorem beginDecode_reason (b : Bool) (c : Cap) (s : State) : (beginDecode b c s).reason = reasonNone := rfl
@[simp] theorem beginDecode_acc (b : Bool) (c : Cap) (s : State) : (beginDecode b c s).acc = 0#13 := rfl
@[simp] theorem beginDecode_cnt (b : Bool) (c : Cap) (s : State) : (beginDecode b c s).cnt = 0#4 := rfl
@[simp] theorem beginDecode_nout (b : Bool) (c : Cap) (s : State) : (beginDecode b c s).nout = 0#16 := rfl
@[simp] theorem beginDecode_cap (b : Bool) (c : Cap) (s : State) : (beginDecode b c s).cap = c := rfl
@[simp] theorem beginDecode_strict (b : Bool) (c : Cap) (s : State) : (beginDecode b c s).strict = b := rfl
@[simp] theorem beginDecode_ovalid (b : Bool) (c : Cap) (s : State) : (beginDecode b c s).ovalid = s.ovalid := rfl
@[simp] theorem beginDecode_obyte (b : Bool) (c : Cap) (s : State) : (beginDecode b c s).obyte = s.obyte := rfl
@[simp] theorem beginDecode_inputs (b : Bool) (c : Cap) (s : State) : (beginDecode b c s).inputs = s.inputs := rfl

@[simp] theorem emit_phase (b : OutByte) (s : State) : (emit b s).phase = s.phase := rfl
@[simp] theorem emit_reason (b : OutByte) (s : State) : (emit b s).reason = s.reason := rfl
@[simp] theorem emit_acc (b : OutByte) (s : State) : (emit b s).acc = s.acc := rfl
@[simp] theorem emit_cnt (b : OutByte) (s : State) : (emit b s).cnt = s.cnt := rfl
@[simp] theorem emit_nout (b : OutByte) (s : State) : (emit b s).nout = s.nout + 1#16 := rfl
@[simp] theorem emit_cap (b : OutByte) (s : State) : (emit b s).cap = s.cap := rfl
@[simp] theorem emit_strict (b : OutByte) (s : State) : (emit b s).strict = s.strict := rfl
@[simp] theorem emit_ovalid (b : OutByte) (s : State) : (emit b s).ovalid = true := rfl
@[simp] theorem emit_obyte (b : OutByte) (s : State) : (emit b s).obyte = b := rfl
@[simp] theorem emit_inputs (b : OutByte) (s : State) : (emit b s).inputs = s.inputs := rfl

@[simp] theorem hold_phase (t : Acc) (n : Nat) (s : State) : (hold t n s).phase = s.phase := rfl
@[simp] theorem hold_reason (t : Acc) (n : Nat) (s : State) : (hold t n s).reason = s.reason := rfl
@[simp] theorem hold_acc (t : Acc) (n : Nat) (s : State) : (hold t n s).acc = t := rfl
@[simp] theorem hold_cnt (t : Acc) (n : Nat) (s : State) : (hold t n s).cnt = BitVec.ofNat 4 n := rfl
@[simp] theorem hold_nout (t : Acc) (n : Nat) (s : State) : (hold t n s).nout = s.nout := rfl
@[simp] theorem hold_cap (t : Acc) (n : Nat) (s : State) : (hold t n s).cap = s.cap := rfl
@[simp] theorem hold_strict (t : Acc) (n : Nat) (s : State) : (hold t n s).strict = s.strict := rfl
@[simp] theorem hold_ovalid (t : Acc) (n : Nat) (s : State) : (hold t n s).ovalid = s.ovalid := rfl
@[simp] theorem hold_obyte (t : Acc) (n : Nat) (s : State) : (hold t n s).obyte = s.obyte := rfl
@[simp] theorem hold_inputs (t : Acc) (n : Nat) (s : State) : (hold t n s).inputs = s.inputs := rfl

@[simp] theorem presentCommand_phase (w : CmdWord) (s : State) : (presentCommand w s).phase = s.phase := rfl
@[simp] theorem presentCommand_reason (w : CmdWord) (s : State) : (presentCommand w s).reason = s.reason := rfl
@[simp] theorem presentCommand_acc (w : CmdWord) (s : State) : (presentCommand w s).acc = s.acc := rfl
@[simp] theorem presentCommand_cnt (w : CmdWord) (s : State) : (presentCommand w s).cnt = s.cnt := rfl
@[simp] theorem presentCommand_nout (w : CmdWord) (s : State) : (presentCommand w s).nout = s.nout := rfl
@[simp] theorem presentCommand_cap (w : CmdWord) (s : State) : (presentCommand w s).cap = s.cap := rfl
@[simp] theorem presentCommand_strict (w : CmdWord) (s : State) : (presentCommand w s).strict = s.strict := rfl
@[simp] theorem presentCommand_ovalid (w : CmdWord) (s : State) : (presentCommand w s).ovalid = s.ovalid := rfl
@[simp] theorem presentCommand_obyte (w : CmdWord) (s : State) : (presentCommand w s).obyte = s.obyte := rfl
@[simp] theorem presentCommand_inputs (w : CmdWord) (s : State) : (presentCommand w s).inputs = ⟨false, true, w⟩ :: s.inputs := rfl

/-- Sampling takes the head off the input list, and changes no register. -/
theorem sampleInputs_snd (s : State) : (sampleInputs s).2 = { s with inputs := s.inputs.tail } := by
  rcases s with ⟨_, _ | _⟩ <;> rfl

@[simp] theorem sampleInputs_phase (s : State) : (sampleInputs s).2.phase = s.phase := by
  rw [sampleInputs_snd]

@[simp] theorem sampleInputs_reason (s : State) : (sampleInputs s).2.reason = s.reason := by
  rw [sampleInputs_snd]

@[simp] theorem sampleInputs_acc (s : State) : (sampleInputs s).2.acc = s.acc := by
  rw [sampleInputs_snd]

@[simp] theorem sampleInputs_cnt (s : State) : (sampleInputs s).2.cnt = s.cnt := by
  rw [sampleInputs_snd]

@[simp] theorem sampleInputs_nout (s : State) : (sampleInputs s).2.nout = s.nout := by
  rw [sampleInputs_snd]

@[simp] theorem sampleInputs_cap (s : State) : (sampleInputs s).2.cap = s.cap := by
  rw [sampleInputs_snd]

@[simp] theorem sampleInputs_strict (s : State) : (sampleInputs s).2.strict = s.strict := by
  rw [sampleInputs_snd]

@[simp] theorem sampleInputs_ovalid (s : State) : (sampleInputs s).2.ovalid = s.ovalid := by
  rw [sampleInputs_snd]

@[simp] theorem sampleInputs_obyte (s : State) : (sampleInputs s).2.obyte = s.obyte := by
  rw [sampleInputs_snd]

@[simp] theorem sampleInputs_inputs (s : State) : (sampleInputs s).2.inputs = s.inputs.tail := by
  rw [sampleInputs_snd]

/-- With inputs to come, sampling reads the first. -/
theorem sampleInputs_cons (s : State) (e : EdgeInput) (rest : List EdgeInput) (h : s.inputs = e :: rest) :
    sampleInputs s = (e, { s with inputs := rest }) := by
  simp [sampleInputs, h]

/-- With no input to come, sampling reads an idle edge. -/
theorem sampleInputs_nil (s : State) (h : s.inputs = []) : sampleInputs s = (⟨false, false, 0#19⟩, s) := by
  simp [sampleInputs, h]

end Sys2Proof.Machine
end

