-- ==== Sys2Proof/Laws/Exec.lean ====
section
/-! SUPPORT. What a command can do, said once: `Event` has one constructor per row of the table of 10_state.md R32, and
`exec_event` says that a next state of `exec` is one of them. -/

namespace Sys2Proof.Machine

open Sys2Proof

/-- Every CHAR row is the CHAR command on its code. -/
theorem exec_char (i : Instr) (c : CharCode) (s : State) (h : i.charCode = some c) :
    exec i s = charCmd c s := by
  cases i <;> simp only [Instr.charCode, Option.some.injEq, reduceCtorEq] at h <;> subst h <;> rfl

/-- The events of R32 that a command can be, with the state each leaves. -/
inductive Event (i : Instr) (s : State) : State → Prop
  | started (b : Bool) (capv : Cap) (hi : i = .start b capv) :
      Event i s (beginDecode b capv (clearValid s))
  | ended (r : BitVec 17) (hi : i = .endInput r) (hp : s.phase = true) :
      Event i s (stop .endOfInput (clearValid s))
  | reservedOp (x : BitVec 17) (hi : i = .rsvd x) : Event i s (clearValid s)
  | discarded (hi : ∀ b capv, i ≠ .start b capv) (hp : s.phase = false) : Event i s (clearValid s)
  | padded (c : CharCode) (hi : i.charCode = some c) (hc : classOf c = .pad) (hp : s.phase = true) :
      Event i s (stop .pad (clearValid s))
  | skipped (c : CharCode) (hi : i.charCode = some c) (hc : classOf c = .skip) (hp : s.phase = true)
      (hs : s.strict = false) : Event i s (clearValid s)
  | rejected (c : CharCode) (hi : i.charCode = some c) (hc : classOf c = .skip) (hp : s.phase = true)
      (hs : s.strict = true) : Event i s (stop .invalid (clearValid s))
  | absorbed (c : CharCode) (v : Sym) (hi : i.charCode = some c) (hc : classOf c = .accept v)
      (hp : s.phase = true) (hn : s.cnt.toNat ≤ 2) :
      Event i s (hold (shiftIn s.acc v) (heldAfter s.cnt) (clearValid s))
  | emitted (c : CharCode) (v : Sym) (hi : i.charCode = some c) (hc : classOf c = .accept v)
      (hp : s.phase = true) (hn : 3 ≤ s.cnt.toNat) (hn' : s.cnt.toNat ≤ 7) (hr : s.nout ≠ s.cap) :
      Event i s (hold (shiftIn s.acc v) (heldAfter s.cnt - 8)
        (emit (topByte (shiftIn s.acc v) (heldAfter s.cnt)) (clearValid s)))
  | overflowed (c : CharCode) (v : Sym) (hi : i.charCode = some c) (hc : classOf c = .accept v)
      (hp : s.phase = true) (hn : 3 ≤ s.cnt.toNat) (hn' : s.cnt.toNat ≤ 7) (hf : s.nout = s.cap) :
      Event i s (stop .overflow (clearValid s))

/-- All that an accepted symbol can do (R89, R90, R92, and the model's fault). -/
theorem acceptSymbol_cases (v : Sym) (s : State) :
    (8 ≤ s.cnt.toNat ∧ acceptSymbol v s = .fault .cntOutOfRange) ∨
    (s.cnt.toNat ≤ 2 ∧ acceptSymbol v s = .next (hold (shiftIn s.acc v) (heldAfter s.cnt) s)) ∨
    (3 ≤ s.cnt.toNat ∧ s.cnt.toNat ≤ 7 ∧ s.nout = s.cap ∧ acceptSymbol v s = .next (stop .overflow s)) ∨
    (3 ≤ s.cnt.toNat ∧ s.cnt.toNat ≤ 7 ∧ s.nout ≠ s.cap ∧
      acceptSymbol v s = .next (hold (shiftIn s.acc v) (heldAfter s.cnt - 8)
        (emit (topByte (shiftIn s.acc v) (heldAfter s.cnt)) s))) := by
  unfold acceptSymbol
  dsimp only
  by_cases h8 : 8 ≤ s.cnt.toNat
  · exact .inl ⟨h8, if_pos h8⟩
  · rw [if_neg h8]
    by_cases hn : 8 ≤ heldAfter s.cnt
    · have h3 : 3 ≤ s.cnt.toNat := by rw [heldAfter] at hn; omega
      rw [if_pos hn]
      by_cases hf : s.nout = s.cap
      · exact .inr (.inr (.inl ⟨h3, by omega, hf, if_pos hf⟩))
      · exact .inr (.inr (.inr ⟨h3, by omega, hf, if_neg hf⟩))
    · exact .inr (.inl ⟨by rw [heldAfter] at hn; omega, if_neg hn⟩)

/-- A CHAR that answers a next state is one of the CHAR events. -/
theorem charCmd_event (i : Instr) (c : CharCode) (s t : State) (hi : i.charCode = some c)
    (h : charCmd c s = .next t) : Event i s t := by
  unfold charCmd at h
  cases hp : s.phase
  · rw [hp] at h
    cases h
    exact .discarded (fun b capv hb => by subst hb; cases hi) hp
  · rw [hp, if_pos rfl] at h
    unfold charActive at h
    cases hc : classOf c with
    | pad =>
      rw [hc] at h
      cases h
      exact .padded c hi hc hp
    | skip =>
      rw [hc] at h
      cases hs : s.strict
      · simp only [clearValid_strict, hs, Bool.false_eq_true, if_false] at h
        cases h
        exact .skipped c hi hc hp hs
      · simp only [clearValid_strict, hs, if_true] at h
        cases h
        exact .rejected c hi hc hp hs
    | accept v =>
      rw [hc] at h
      dsimp only at h
      rcases acceptSymbol_cases v (clearValid s) with ⟨_, he⟩ | ⟨hn, he⟩ | ⟨hn, hn', hf, he⟩ | ⟨hn, hn', hr, he⟩ <;>
        rw [he] at h <;> cases h
      · exact .absorbed c v hi hc hp hn
      · exact .overflowed c v hi hc hp hn hn' hf
      · exact .emitted c v hi hc hp hn hn' hr

/-- A command that answers a next state is one of the events of R32. -/
theorem exec_event (i : Instr) (s t : State) (h : exec i s = .next t) : Event i s t := by
  cases hc : i.charCode with
  | some c => exact charCmd_event i c s t hc ((exec_char i c s hc).symm.trans h)
  | none =>
    cases i <;> simp only [Instr.charCode, reduceCtorEq] at hc
    case start b capv =>
      cases h
      exact .started b capv rfl
    case endInput r =>
      simp only [exec, execEndInput] at h
      split at h
      · rename_i hp
        cases h
        exact .ended r rfl hp
      · rename_i hp
        cases h
        exact .discarded (fun _ _ hb => by cases hb) (by simpa using hp)
    case rsvd x =>
      cases h
      exact .reservedOp x rfl

/-- CHAR in STOPPED. -/
theorem charCmd_stopped (c : CharCode) (s : State) (hp : s.phase = false) :
    charCmd c s = .next (clearValid s) := by
  simp [charCmd, hp]

/-- CHAR in ACTIVE. -/
theorem charCmd_active (c : CharCode) (s : State) (hp : s.phase = true) :
    charCmd c s = charActive c (clearValid s) := by
  simp [charCmd, hp]

/-- A CHAR.ACCEPT in ACTIVE. -/
theorem charCmd_accept (c : CharCode) (v : Sym) (s : State) (hp : s.phase = true) (hc : classOf c = .accept v) :
    charCmd c s = acceptSymbol v (clearValid s) := by
  rw [charCmd_active c s hp, charActive, hc]

/-- The one fault: CNT out of its range when a CHAR.ACCEPT reads it. -/
theorem charCmd_fault (c : CharCode) (s : State) (f : Fault) (h : charCmd c s = .fault f) :
    8 ≤ s.cnt.toNat ∧ s.phase = true := by
  cases hp : s.phase
  · rw [charCmd_stopped c s hp] at h
    cases h
  · refine ⟨?_, rfl⟩
    rw [charCmd_active c s hp, charActive] at h
    cases hc : classOf c with
    | pad => rw [hc] at h; cases h
    | skip =>
      rw [hc] at h
      dsimp only at h
      split at h <;> cases h
    | accept v =>
      rw [hc] at h
      rcases acceptSymbol_cases v (clearValid s) with ⟨h8, _⟩ | ⟨_, he⟩ | ⟨_, _, _, he⟩ | ⟨_, _, _, he⟩
      · exact h8
      all_goals
        dsimp only at h
        rw [he] at h
        cases h

end Sys2Proof.Machine
end

