-- ==== Sys2Proof/Laws/Step.lean ====
section
/-! SUPPORT. The step, by the kind of edge (10_state.md R29). -/

namespace Sys2Proof.Machine

open Sys2Proof

/-- The edge a list of inputs gives first. -/
theorem step_cons (s : State) (e : EdgeInput) (rest : List EdgeInput) (h : s.inputs = e :: rest) :
    step s = edge e { s with inputs := rest } := by
  rw [step, nextEdge, sampleInputs_cons s e rest h]

/-- With no input to come, the step is an idle edge. -/
theorem step_nil (s : State) (h : s.inputs = []) : step s = .next (clearValid s) := by
  rw [step, nextEdge, sampleInputs_nil s h]
  rfl

/-- A reset edge. -/
theorem edge_reset (e : EdgeInput) (s : State) (h : e.rst = true) : edge e s = .next (resetState s) := by
  rw [edge, if_pos h]

/-- A command edge. -/
theorem edge_command (e : EdgeInput) (s : State) (h : e.rst = false) (hv : e.cmdValid = true) :
    edge e s = exec (decode e.cmd) s := by
  simp [edge, h, hv, execute]

/-- An idle edge. -/
theorem edge_idle (e : EdgeInput) (s : State) (h : e.rst = false) (hv : e.cmdValid = false) :
    edge e s = .next (clearValid s) := by
  simp [edge, h, hv, idleEdge]

/-- What a step that answers a next state did: an event of one of the three kinds of edge. -/
theorem step_cases (s t : State) (h : step s = .next t) :
    ((sampleInputs s).1.rst = true ∧ t = resetState (sampleInputs s).2) ∨
    ((sampleInputs s).1.rst = false ∧ (sampleInputs s).1.cmdValid = true ∧
      Event (decode (sampleInputs s).1.cmd) (sampleInputs s).2 t) ∨
    ((sampleInputs s).1.rst = false ∧ (sampleInputs s).1.cmdValid = false ∧ t = clearValid (sampleInputs s).2) := by
  rw [step, nextEdge] at h
  cases hr : (sampleInputs s).1.rst
  · cases hv : (sampleInputs s).1.cmdValid
    · rw [edge_idle _ _ hr hv] at h
      cases h
      exact .inr (.inr ⟨rfl, rfl, rfl⟩)
    · rw [edge_command _ _ hr hv] at h
      exact .inr (.inl ⟨rfl, rfl, exec_event _ _ _ h⟩)
  · rw [edge_reset _ _ hr] at h
    cases h
    exact .inl ⟨rfl, rfl⟩

end Sys2Proof.Machine
end

