-- ==== Sys2Proof/Laws/Observe.lean ====
section
/-! SUPPORT. One edge of the observations: of a run (10_state.md R40) and of the host beside the block (R133). -/

namespace Sys2Proof.Machine

open Sys2Proof

/-- A state that presents nothing emits nothing. -/
theorem emitted_of_not_valid (s : State) (h : s.ovalid = false) : s.emitted = [] := by
  simp [State.emitted, h]

/-- A state that presents a byte emits it. -/
theorem emitted_of_valid (s : State) (h : s.ovalid = true) : s.emitted = [s.obyte] := by
  simp [State.emitted, h]

@[simp] theorem emitted_clearValid (s : State) : (clearValid s).emitted = [] :=
  emitted_of_not_valid _ rfl

/-- Inputs to come are no part of what a state presents. -/
@[simp] theorem emitted_inputs (s : State) (l : List EdgeInput) : { s with inputs := l }.emitted = s.emitted := rfl

/-- The observation of no edge: the final registers. -/
theorem observeRun_zero (s : State) : observeRun 0 s = .next ⟨[], s.phase, s.reason, s.nout⟩ := rfl

/-- The observation of a run that goes on: the first edge's bytes before the rest's. -/
theorem observeRun_succ (k : Nat) (s t : State) (o : Observation) (h : step s = .next t)
    (ho : observeRun k t = .next o) : observeRun (k + 1) s = .next { o with bytes := t.emitted ++ o.bytes } := by
  simp [observeRun, h, ho]

/-- The block and the host beside it, when the step goes on. -/
theorem observedStep_next (s t : State) (h : HostView) (hs : step s = .next t) :
    observedStep (s, h) = .next (t, h.observe (sampleInputs s).1 t) := by
  simp [observedStep, hs]

/-- The host's record at an edge that begins no decode and is no reset. -/
theorem observe_bytes (h : HostView) (e : EdgeInput) (t : State) (he : e.restarts = false) :
    (h.observe e t).bytes = h.bytes ++ t.emitted := by
  simp [HostView.observe, he]

/-- The host's record at a START or a reset. -/
theorem observe_bytes_restart (h : HostView) (e : EdgeInput) (t : State) (he : e.restarts = true) :
    (h.observe e t).bytes = t.emitted := by
  simp [HostView.observe, he]

end Sys2Proof.Machine
end

