-- ==== Sys2Proof/Laws/Operands.lean ====
section
/-! SUPPORT. The accumulator operations as arithmetic (41_char.md R93), and the parameters of 00_scope.md R7 against the types. -/

namespace Sys2Proof.Machine

open Sys2Proof

/-- The types have the widths that R7 fixes. -/
theorem widths_are_parameters :
    CharCode = BitVec Config.charW ∧ Sym = BitVec Config.symW ∧ OutByte = BitVec Config.byteW ∧
    Acc = BitVec Config.accW ∧ Count = BitVec Config.cntW ∧ Cap = BitVec Config.capW ∧
    CmdWord = BitVec Config.cmdW :=
  ⟨rfl, rfl, rfl, rfl, rfl, rfl, rfl⟩

/-- The shift-in as a number: the OR cannot carry (R93). -/
theorem shiftIn_toNat (acc : Acc) (v : Sym) : (shiftIn acc v).toNat = (32 * acc.toNat + v.toNat) % 2 ^ 13 := by
  have disjoint : (acc.toNat <<< 5) ||| v.toNat = 32 * acc.toNat + v.toNat := by
    rw [Nat.shiftLeft_eq, Nat.mul_comm, ← Nat.two_pow_add_eq_or_of_lt v.isLt]
  have hv : v.toNat < 2 ^ 13 := by omega
  rw [shiftIn, BitVec.toNat_or, BitVec.toNat_shiftLeft, BitVec.toNat_setWidth]
  rw [← Nat.or_mod_two_pow, disjoint]

/-- The emitted byte as a number: bits n-8 and up of the accumulator. -/
theorem topByte_toNat (t : Acc) (n : Nat) : (topByte t n).toNat = t.toNat / 2 ^ (n - 8) % 256 := by
  rw [topByte, BitVec.extractLsb'_toNat, Nat.shiftRight_eq_div_pow]

/-- CNT + 5 lies between 5 and 12 while CNT is in its range (R93). -/
theorem heldAfter_le (cnt : Count) (h : cnt.toNat ≤ 7) : 5 ≤ heldAfter cnt ∧ heldAfter cnt ≤ 12 := by
  rw [heldAfter]; omega

/-- NOUT + 1 does not wrap below a capacity (R93). -/
theorem nout_succ_toNat (nout cap : Cap) (h : nout.toNat < cap.toNat) : (nout + 1#16).toNat = nout.toNat + 1 := by
  rw [BitVec.toNat_add]
  have := cap.isLt
  simp only [BitVec.toNat_ofNat]
  omega

/-- A count below 8, written to CNT. -/
theorem count_toNat (n : Nat) (h : n < 16) : (BitVec.ofNat 4 n).toNat = n := by
  rw [BitVec.toNat_ofNat]; omega

end Sys2Proof.Machine
end

