-- ==== Sys2Proof/Laws/PerInstr.lean ====
section
/-! SUPPORT. Per instruction: the encoded word of every instruction lies in its own row of the opcode table, and the row
has the instruction's mnemonic (30_encoding.md R68; opcode_table.json). -/

namespace Sys2Proof.Laws.EncodeInRow

/-- Some row of the opcode table has the instruction's mnemonic and covers its encoded word. -/
def Statement (i : Instr) : Prop :=
  ∃ row ∈ opcodeTable, row.mnemonic = i.mnemonic ∧ row.covers (encode i) = true

theorem start (sb : Bool) (capv : Cap) : Statement (.start sb capv) :=
  ⟨⟨"START", 0x40000#19, 0x60000#19⟩, by decide, rfl, startWord_covers _ sb capv⟩

theorem endInput (r : BitVec 17) : Statement (.endInput r) :=
  ⟨⟨"END", 0x20000#19, 0x60000#19⟩, by decide, rfl, opWord_covers _ _ 0b01#2 r (by decide)⟩

theorem rsvd (x : BitVec 17) : Statement (.rsvd x) :=
  ⟨⟨"RSVD", 0x60000#19, 0x60000#19⟩, by decide, rfl, opWord_covers _ _ 0b11#2 x (by decide)⟩

theorem charPad (r : BitVec 9) : Statement (.charPad r) :=
  ⟨⟨"CHAR.PAD", 0x0003D#19, 0x600FF#19⟩, by decide, rfl, charWord_code_covers _ _ r _ (by decide)⟩

theorem charAcceptA (r : BitVec 9) : Statement (.charAcceptA r) :=
  ⟨⟨"CHAR.ACCEPT__A", 0x00041#19, 0x600FF#19⟩, by decide, rfl, charWord_code_covers _ _ r _ (by decide)⟩

theorem charAcceptB (r : BitVec 9) : Statement (.charAcceptB r) :=
  ⟨⟨"CHAR.ACCEPT__B", 0x00042#19, 0x600FF#19⟩, by decide, rfl, charWord_code_covers _ _ r _ (by decide)⟩

theorem charAcceptC (r : BitVec 9) : Statement (.charAcceptC r) :=
  ⟨⟨"CHAR.ACCEPT__C", 0x00043#19, 0x600FF#19⟩, by decide, rfl, charWord_code_covers _ _ r _ (by decide)⟩

theorem charAcceptD (r : BitVec 9) : Statement (.charAcceptD r) :=
  ⟨⟨"CHAR.ACCEPT__D", 0x00044#19, 0x600FF#19⟩, by decide, rfl, charWord_code_covers _ _ r _ (by decide)⟩

theorem charAcceptE (r : BitVec 9) : Statement (.charAcceptE r) :=
  ⟨⟨"CHAR.ACCEPT__E", 0x00045#19, 0x600FF#19⟩, by decide, rfl, charWord_code_covers _ _ r _ (by decide)⟩

theorem charAcceptF (r : BitVec 9) : Statement (.charAcceptF r) :=
  ⟨⟨"CHAR.ACCEPT__F", 0x00046#19, 0x600FF#19⟩, by decide, rfl, charWord_code_covers _ _ r _ (by decide)⟩

theorem charAcceptG (r : BitVec 9) : Statement (.charAcceptG r) :=
  ⟨⟨"CHAR.ACCEPT__G", 0x00047#19, 0x600FF#19⟩, by decide, rfl, charWord_code_covers _ _ r _ (by decide)⟩

theorem charAcceptH (r : BitVec 9) : Statement (.charAcceptH r) :=
  ⟨⟨"CHAR.ACCEPT__H", 0x00048#19, 0x600FF#19⟩, by decide, rfl, charWord_code_covers _ _ r _ (by decide)⟩

theorem charAcceptI (r : BitVec 9) : Statement (.charAcceptI r) :=
  ⟨⟨"CHAR.ACCEPT__I", 0x00049#19, 0x600FF#19⟩, by decide, rfl, charWord_code_covers _ _ r _ (by decide)⟩

theorem charAcceptJ (r : BitVec 9) : Statement (.charAcceptJ r) :=
  ⟨⟨"CHAR.ACCEPT__J", 0x0004A#19, 0x600FF#19⟩, by decide, rfl, charWord_code_covers _ _ r _ (by decide)⟩

theorem charAcceptK (r : BitVec 9) : Statement (.charAcceptK r) :=
  ⟨⟨"CHAR.ACCEPT__K", 0x0004B#19, 0x600FF#19⟩, by decide, rfl, charWord_code_covers _ _ r _ (by decide)⟩

theorem charAcceptL (r : BitVec 9) : Statement (.charAcceptL r) :=
  ⟨⟨"CHAR.ACCEPT__L", 0x0004C#19, 0x600FF#19⟩, by decide, rfl, charWord_code_covers _ _ r _ (by decide)⟩

theorem charAcceptM (r : BitVec 9) : Statement (.charAcceptM r) :=
  ⟨⟨"CHAR.ACCEPT__M", 0x0004D#19, 0x600FF#19⟩, by decide, rfl, charWord_code_covers _ _ r _ (by decide)⟩

theorem charAcceptN (r : BitVec 9) : Statement (.charAcceptN r) :=
  ⟨⟨"CHAR.ACCEPT__N", 0x0004E#19, 0x600FF#19⟩, by decide, rfl, charWord_code_covers _ _ r _ (by decide)⟩

theorem charAcceptO (r : BitVec 9) : Statement (.charAcceptO r) :=
  ⟨⟨"CHAR.ACCEPT__O", 0x0004F#19, 0x600FF#19⟩, by decide, rfl, charWord_code_covers _ _ r _ (by decide)⟩

theorem charAcceptP (r : BitVec 9) : Statement (.charAcceptP r) :=
  ⟨⟨"CHAR.ACCEPT__P", 0x00050#19, 0x600FF#19⟩, by decide, rfl, charWord_code_covers _ _ r _ (by decide)⟩

theorem charAcceptQ (r : BitVec 9) : Statement (.charAcceptQ r) :=
  ⟨⟨"CHAR.ACCEPT__Q", 0x00051#19, 0x600FF#19⟩, by decide, rfl, charWord_code_covers _ _ r _ (by decide)⟩

theorem charAcceptR (r : BitVec 9) : Statement (.charAcceptR r) :=
  ⟨⟨"CHAR.ACCEPT__R", 0x00052#19, 0x600FF#19⟩, by decide, rfl, charWord_code_covers _ _ r _ (by decide)⟩

theorem charAcceptS (r : BitVec 9) : Statement (.charAcceptS r) :=
  ⟨⟨"CHAR.ACCEPT__S", 0x00053#19, 0x600FF#19⟩, by decide, rfl, charWord_code_covers _ _ r _ (by decide)⟩

theorem charAcceptT (r : BitVec 9) : Statement (.charAcceptT r) :=
  ⟨⟨"CHAR.ACCEPT__T", 0x00054#19, 0x600FF#19⟩, by decide, rfl, charWord_code_covers _ _ r _ (by decide)⟩

theorem charAcceptU (r : BitVec 9) : Statement (.charAcceptU r) :=
  ⟨⟨"CHAR.ACCEPT__U", 0x00055#19, 0x600FF#19⟩, by decide, rfl, charWord_code_covers _ _ r _ (by decide)⟩

theorem charAcceptV (r : BitVec 9) : Statement (.charAcceptV r) :=
  ⟨⟨"CHAR.ACCEPT__V", 0x00056#19, 0x600FF#19⟩, by decide, rfl, charWord_code_covers _ _ r _ (by decide)⟩

theorem charAcceptW (r : BitVec 9) : Statement (.charAcceptW r) :=
  ⟨⟨"CHAR.ACCEPT__W", 0x00057#19, 0x600FF#19⟩, by decide, rfl, charWord_code_covers _ _ r _ (by decide)⟩

theorem charAcceptX (r : BitVec 9) : Statement (.charAcceptX r) :=
  ⟨⟨"CHAR.ACCEPT__X", 0x00058#19, 0x600FF#19⟩, by decide, rfl, charWord_code_covers _ _ r _ (by decide)⟩

theorem charAcceptY (r : BitVec 9) : Statement (.charAcceptY r) :=
  ⟨⟨"CHAR.ACCEPT__Y", 0x00059#19, 0x600FF#19⟩, by decide, rfl, charWord_code_covers _ _ r _ (by decide)⟩

theorem charAcceptZ (r : BitVec 9) : Statement (.charAcceptZ r) :=
  ⟨⟨"CHAR.ACCEPT__Z", 0x0005A#19, 0x600FF#19⟩, by decide, rfl, charWord_code_covers _ _ r _ (by decide)⟩

theorem charAccept2 (r : BitVec 9) : Statement (.charAccept2 r) :=
  ⟨⟨"CHAR.ACCEPT__2", 0x00032#19, 0x600FF#19⟩, by decide, rfl, charWord_code_covers _ _ r _ (by decide)⟩

theorem charAccept3 (r : BitVec 9) : Statement (.charAccept3 r) :=
  ⟨⟨"CHAR.ACCEPT__3", 0x00033#19, 0x600FF#19⟩, by decide, rfl, charWord_code_covers _ _ r _ (by decide)⟩

theorem charAccept4 (r : BitVec 9) : Statement (.charAccept4 r) :=
  ⟨⟨"CHAR.ACCEPT__4", 0x00034#19, 0x600FF#19⟩, by decide, rfl, charWord_code_covers _ _ r _ (by decide)⟩

theorem charAccept5 (r : BitVec 9) : Statement (.charAccept5 r) :=
  ⟨⟨"CHAR.ACCEPT__5", 0x00035#19, 0x600FF#19⟩, by decide, rfl, charWord_code_covers _ _ r _ (by decide)⟩

theorem charAccept6 (r : BitVec 9) : Statement (.charAccept6 r) :=
  ⟨⟨"CHAR.ACCEPT__6", 0x00036#19, 0x600FF#19⟩, by decide, rfl, charWord_code_covers _ _ r _ (by decide)⟩

theorem charAccept7 (r : BitVec 9) : Statement (.charAccept7 r) :=
  ⟨⟨"CHAR.ACCEPT__7", 0x00037#19, 0x600FF#19⟩, by decide, rfl, charWord_code_covers _ _ r _ (by decide)⟩

theorem charSkip (r : BitVec 9) (c : CharCode) : Statement (.charSkip r c) :=
  ⟨⟨"CHAR.SKIP", 0x00000#19, 0x60000#19⟩, by decide, rfl, charWord_op_covers _ r c⟩

end Sys2Proof.Laws.EncodeInRow
end

