-- ==== Sys2Proof/Tests/Slice0.lean ====
section
/-! SUPPORT. Tests with expected results from the spec (95_test_vectors.md and the encodings of 30_encoding.md), and a witness
for the hypotheses of each statement that has some. -/

namespace Sys2Proof.Tests

open Sys2Proof Sys2Proof.Machine

/-! ## Helpers -/

/-- The outcome is a next state with a property. -/
def nextSat (o : Host.Outcome State Fault Refusal) (p : State → Bool) : Bool :=
  match o with
  | .next t => p t
  | .fault _ => false
  | .refused _ => false

/-- The next state of an outcome, or a state given for the other outcomes. -/
def nextOr (s : State) (o : Host.Outcome State Fault Refusal) : State :=
  match o with
  | .next t => t
  | .fault _ => s
  | .refused _ => s

/-- A lenient decode in progress, with no input to come. -/
def midDecode (acc : Acc) (cnt : Count) (nout cap : Cap) : State :=
  ⟨⟨true, 0#3, acc, cnt, nout, cap, false, false, 0x00#8⟩, []⟩

/-- The same, strict. -/
def midStrict (acc : Acc) (cnt : Count) (nout cap : Cap) : State :=
  { midDecode acc cnt nout cap with strict := true }

/-- A stopped decode with reason PAD. -/
def afterPad : State := ⟨⟨false, 1#3, 0x198#13, 2#4, 1#16, 16#16, false, true, 0x66#8⟩, []⟩

/-- A command edge before a state's inputs. -/
def withCommand (w : CmdWord) (s : State) : State := presentCommand w s

/-- A reset edge with a command on the port, before a state's inputs. -/
def withReset (s : State) : State := { s with inputs := ⟨true, true, 0x0004D#19⟩ :: s.inputs }

/-- An idle edge before a state's inputs. -/
def withIdle (s : State) : State := { s with inputs := ⟨false, false, 0x0004D#19⟩ :: s.inputs }

/-! ## Decoding: for every constructor a word written out from the spec's encoding of it (R59–R62, R66) -/

theorem test_decode_start : decode 0b10_1_0000000000010000#19 = .start true 16#16 := by decide
theorem test_decode_start_lenient : decode 0b10_0_1111111111111111#19 = .start false 65535#16 := by decide
theorem test_decode_end : decode 0b01_00000000000000000#19 = .endInput 0#17 := by decide
theorem test_decode_end_reserved : decode 0b01_10000000000000001#19 = .endInput 0x10001#17 := by decide
theorem test_decode_rsvd : decode 0b11_11111111111111111#19 = .rsvd 0x1FFFF#17 := by decide
theorem test_decode_pad : decode 0b00_000000000_00111101#19 = .charPad 0#9 := by decide
theorem test_decode_accepta : decode 0b00_000000000_01000001#19 = .charAcceptA 0#9 := by decide
theorem test_decode_acceptb : decode 0b00_000000000_01000010#19 = .charAcceptB 0#9 := by decide
theorem test_decode_acceptc : decode 0b00_000000000_01000011#19 = .charAcceptC 0#9 := by decide
theorem test_decode_acceptd : decode 0b00_000000000_01000100#19 = .charAcceptD 0#9 := by decide
theorem test_decode_accepte : decode 0b00_000000000_01000101#19 = .charAcceptE 0#9 := by decide
theorem test_decode_acceptf : decode 0b00_000000000_01000110#19 = .charAcceptF 0#9 := by decide
theorem test_decode_acceptg : decode 0b00_000000000_01000111#19 = .charAcceptG 0#9 := by decide
theorem test_decode_accepth : decode 0b00_000000000_01001000#19 = .charAcceptH 0#9 := by decide
theorem test_decode_accepti : decode 0b00_000000000_01001001#19 = .charAcceptI 0#9 := by decide
theorem test_decode_acceptj : decode 0b00_000000000_01001010#19 = .charAcceptJ 0#9 := by decide
theorem test_decode_acceptk : decode 0b00_000000000_01001011#19 = .charAcceptK 0#9 := by decide
theorem test_decode_acceptl : decode 0b00_000000000_01001100#19 = .charAcceptL 0#9 := by decide
theorem test_decode_acceptm : decode 0b00_000000000_01001101#19 = .charAcceptM 0#9 := by decide
theorem test_decode_acceptn : decode 0b00_000000000_01001110#19 = .charAcceptN 0#9 := by decide
theorem test_decode_accepto : decode 0b00_000000000_01001111#19 = .charAcceptO 0#9 := by decide
theorem test_decode_acceptp : decode 0b00_000000000_01010000#19 = .charAcceptP 0#9 := by decide
theorem test_decode_acceptq : decode 0b00_000000000_01010001#19 = .charAcceptQ 0#9 := by decide
theorem test_decode_acceptr : decode 0b00_000000000_01010010#19 = .charAcceptR 0#9 := by decide
theorem test_decode_accepts : decode 0b00_000000000_01010011#19 = .charAcceptS 0#9 := by decide
theorem test_decode_acceptt : decode 0b00_000000000_01010100#19 = .charAcceptT 0#9 := by decide
theorem test_decode_acceptu : decode 0b00_000000000_01010101#19 = .charAcceptU 0#9 := by decide
theorem test_decode_acceptv : decode 0b00_000000000_01010110#19 = .charAcceptV 0#9 := by decide
theorem test_decode_acceptw : decode 0b00_000000000_01010111#19 = .charAcceptW 0#9 := by decide
theorem test_decode_acceptx : decode 0b00_000000000_01011000#19 = .charAcceptX 0#9 := by decide
theorem test_decode_accepty : decode 0b00_000000000_01011001#19 = .charAcceptY 0#9 := by decide
theorem test_decode_acceptz : decode 0b00_000000000_01011010#19 = .charAcceptZ 0#9 := by decide
theorem test_decode_accept2 : decode 0b00_000000000_00110010#19 = .charAccept2 0#9 := by decide
theorem test_decode_accept3 : decode 0b00_000000000_00110011#19 = .charAccept3 0#9 := by decide
theorem test_decode_accept4 : decode 0b00_000000000_00110100#19 = .charAccept4 0#9 := by decide
theorem test_decode_accept5 : decode 0b00_000000000_00110101#19 = .charAccept5 0#9 := by decide
theorem test_decode_accept6 : decode 0b00_000000000_00110110#19 = .charAccept6 0#9 := by decide
theorem test_decode_accept7 : decode 0b00_000000000_00110111#19 = .charAccept7 0#9 := by decide
theorem test_decode_skip : decode 0b00_000000000_01100001#19 = .charSkip 0#9 0x61#8 := by decide
/-- 95_test_vectors.md 2.1: 0xC1 is 'A' with bit 7 set, and no alphabet character. -/
theorem test_decode_skip_high : decode 0b00_000000000_11000001#19 = .charSkip 0#9 0xC1#8 := by decide
/-- 95_test_vectors.md 2.3: the word 0x1FF4D is CHAR 'M' with its reserved bits set. -/
theorem test_decode_reserved_bits : decode 0x1FF4D#19 = .charAcceptM 0x1FF#9 := by decide
theorem test_encode_start : encode (.start true 16#16) = 0x50010#19 := by decide
theorem test_encode_end : encode (.endInput 0#17) = 0x20000#19 := by decide
theorem test_encode_char : encode (.charAcceptM 0#9) = 0x0004D#19 := by decide
theorem test_table_word : decodeTableWord 24 0x40010 = some (.start false 16#16) := by decide
theorem test_table_word_reserved : decodeTableWord 24 0x7FFFF = some (.rsvd 0x1FFFF#17) := by decide

/-- The 32 alphabet rows in the order of their values (R79). -/
theorem test_accept_values :
    [Instr.charAcceptA 0#9, Instr.charAcceptB 0#9, Instr.charAcceptC 0#9, Instr.charAcceptD 0#9,
      Instr.charAcceptE 0#9, Instr.charAcceptF 0#9, Instr.charAcceptG 0#9, Instr.charAcceptH 0#9,
      Instr.charAcceptI 0#9, Instr.charAcceptJ 0#9, Instr.charAcceptK 0#9, Instr.charAcceptL 0#9,
      Instr.charAcceptM 0#9, Instr.charAcceptN 0#9, Instr.charAcceptO 0#9, Instr.charAcceptP 0#9,
      Instr.charAcceptQ 0#9, Instr.charAcceptR 0#9, Instr.charAcceptS 0#9, Instr.charAcceptT 0#9,
      Instr.charAcceptU 0#9, Instr.charAcceptV 0#9, Instr.charAcceptW 0#9, Instr.charAcceptX 0#9,
      Instr.charAcceptY 0#9, Instr.charAcceptZ 0#9, Instr.charAccept2 0#9, Instr.charAccept3 0#9,
      Instr.charAccept4 0#9, Instr.charAccept5 0#9, Instr.charAccept6 0#9, Instr.charAccept7 0#9].map
      Instr.acceptVal = (List.range 32).map fun n => some (BitVec.ofNat 5 n) := by decide

/-- The rows of the opcode table before CHAR.SKIP have no word in common (R68). -/
theorem test_rows_disjoint :
    (opcodeTable.dropLast).Pairwise fun a b => (a.pattern ^^^ b.pattern) &&& (a.mask &&& b.mask) ≠ 0#19 := by
  decide

/-! ## Well-formedness: the ill-formed terms of each check -/

theorem test_ill_formed_pad : (Instr.charSkip 0#9 0x3D#8).wellFormed = false := by decide
theorem test_ill_formed_letter : (Instr.charSkip 0#9 0x41#8).wellFormed = false := by decide
theorem test_ill_formed_last_letter : (Instr.charSkip 0#9 0x5A#8).wellFormed = false := by decide
theorem test_ill_formed_digit : (Instr.charSkip 0#9 0x37#8).wellFormed = false := by decide
theorem test_well_formed_neighbours :
    [0x31#8, 0x38#8, 0x3C#8, 0x3E#8, 0x40#8, 0x5B#8, 0x00#8, 0xFF#8].all
      (fun c => (Instr.charSkip 0#9 c).wellFormed) = true := by decide

/-! ## The lookup ROM (95_test_vectors.md 2.1) -/

theorem test_rom_M : romRead 0x4D#8 = 0x2C#7 := by decide
theorem test_rom_Y : romRead 0x59#8 = 0x38#7 := by decide
theorem test_rom_7 : romRead 0x37#8 = 0x3F#7 := by decide
theorem test_rom_pad : romRead 0x3D#8 = 0x40#7 := by decide
theorem test_rom_invalid :
    [0x00#8, 0x20#8, 0x2A#8, 0x31#8, 0x38#8, 0x3C#8, 0x3E#8, 0x40#8, 0x5B#8, 0x61#8, 0x7F#8, 0x80#8, 0xBD#8, 0xC1#8,
      0xFF#8].all (fun c => romRead c == 0x00#7) = true := by decide

/-! ## One edge each (95_test_vectors.md 2.2 to 2.5 and P1 to P4) -/

/-- P1 rows 2 and 3: CHAR 'M' holds 5 bits, then CHAR 'Z' emits 0x66. -/
theorem test_M_first :
    nextSat (exec (.charAcceptM 0#9) (midDecode 0 0 0 16)) (fun t => t.acc == 12 && t.cnt == 5 && !t.ovalid) = true := by
  decide
theorem test_Z_emits :
    nextSat (exec (.charAcceptZ 0#9) (midDecode 0x00C 5 0 16))
      (fun t => t.acc == 0x199 && t.cnt == 2 && t.nout == 1 && t.ovalid && t.obyte == 0x66) = true := by decide
/-- R98 and 90_conflicts.md C1: 'Y' after 'M' emits 0x66, not 0x63. -/
theorem test_Y_emits :
    nextSat (exec (.charAcceptY 0#9) (midDecode 12 5 0 16))
      (fun t => t.acc == 408 && t.cnt == 2 && t.nout == 1 && t.obyte == 0x66) = true := by decide
/-- 2.2, MZX + 'A': t is truncated to 13 bits, 12 bits are held. -/
theorem test_A_truncates :
    nextSat (exec (.charAcceptA 0#9) (midDecode 0x1337 7 1 65535))
      (fun t => t.acc == 0x06E0 && t.cnt == 4 && t.nout == 2 && t.obyte == 0x6E) = true := by decide
/-- 2.2, MZXW6YT + '7'. -/
theorem test_7_completes :
    nextSat (exec (.charAccept7 0#9) (midDecode 0x1B13 3 4 65535))
      (fun t => t.acc == 0x027F && t.cnt == 0 && t.nout == 5 && t.obyte == 0x7F) = true := by decide
/-- P2 row 5: 'Q' overflows with NOUT = CAP = 1, and ACC and CNT stay. -/
theorem test_Q_overflows :
    nextSat (exec (.charAcceptQ 0#9) (midDecode 0x1337 7 1 1))
      (fun t => !t.phase && t.reason == 3 && t.acc == 0x1337 && t.cnt == 7 && t.nout == 1 && !t.ovalid) = true := by
  decide
/-- 2.4: 'O' is absorbed at NOUT = CAP, as it completes no byte. -/
theorem test_O_absorbed_when_full :
    nextSat (exec (.charAcceptO 0#9) (midDecode 0x261 0 5 5))
      (fun t => t.phase && t.acc == 0xC2E && t.cnt == 5 && t.nout == 5) = true := by decide
/-- P1 row 12. -/
theorem test_pad_stops :
    nextSat (exec (.charPad 0#9) (midDecode 0x5C8 2 6 16))
      (fun t => !t.phase && t.reason == 1 && t.acc == 0x5C8 && t.cnt == 2 && t.nout == 6) = true := by decide
/-- P3 rows 3 and 7: a space stops a strict decode and is skipped by a lenient one. -/
theorem test_space_strict :
    nextSat (exec (.charSkip 0#9 0x20#8) (midStrict 0x00C 5 0 8))
      (fun t => !t.phase && t.reason == 4 && t.acc == 0x00C && t.cnt == 5) = true := by decide
theorem test_space_lenient :
    nextSat (exec (.charSkip 0#9 0x20#8) (midDecode 0x00C 5 0 8)) (· == midDecode 0x00C 5 0 8) = true := by decide
/-- P1 row 18: END after a padding stop keeps the reason. -/
theorem test_end_discarded :
    nextSat (exec (.endInput 0#17) afterPad) (fun t => t.reason == 1 && t.nout == 1 && !t.ovalid) = true := by decide
/-- P2 row 12. -/
theorem test_end_stops :
    nextSat (exec (.endInput 0#17) (midDecode 0x6F0 4 2 2)) (fun t => !t.phase && t.reason == 2 && t.cnt == 4) = true := by
  decide
/-- 2.5: `START 8; CHAR 'M'; START 8`. -/
theorem test_restart :
    nextSat (exec (.start false 8#16) (midDecode 12 5 0 8))
      (fun t => t.phase && t.acc == 0 && t.cnt == 0 && t.nout == 0 && t.cap == 8) = true := by decide
theorem test_start_keeps_obyte :
    nextSat (exec (.start true 16#16) afterPad)
      (fun t => t.phase && t.reason == 0 && t.strict && t.cap == 16 && t.obyte == 0x66 && !t.ovalid) = true := by decide
/-- R106: `RSVD 0x7FFFF` in ACTIVE with CNT = 5. -/
theorem test_rsvd_keeps :
    nextSat (exec (.rsvd 0x1FFFF#17) (midDecode 12 5 0 8)) (· == midDecode 12 5 0 8) = true := by decide
/-- 2.5: one IDLE after an emission leaves out_valid 0 and out_byte held. -/
theorem test_idle_holds_obyte :
    nextSat (step (withIdle { midDecode 408 2 1 8 with ovalid := true, obyte := 0x66 }))
      (fun t => !t.ovalid && t.obyte == 0x66 && t.phase && t.cnt == 2) = true := by decide
/-- 2.5: an edge with `rst = 1` and CHAR 'M' on the port gives the reset state; the 'M' is lost. -/
theorem test_reset_wins : nextSat (step (withReset (midDecode 408 2 1 8))) (· == State.reset) = true := by decide
/-- The first instruction after reset, through the word's placing. -/
theorem test_place_and_step :
    nextSat (step (State.reset.withFetchWord 24 0x50010)) (fun t => t.phase && t.cap == 16 && t.strict) = true := by
  decide

/-- P2: over a run of two edges the observation keeps a byte of the decode before a START (R40), the host's record of the
current decode does not (R44). -/
theorem test_observation_across_start :
    (match observeRun 2 { midDecode 0x00C 5 0 1 with inputs := [⟨false, true, 0x0005A#19⟩, ⟨false, true, 0x40002#19⟩] } with
      | .next o => o == ⟨[0x66#8], true, 0#3, 0#16⟩
      | .fault _ => false
      | .refused _ => false) = true := by decide
theorem test_host_record_at_start :
    ((⟨[0x66#8]⟩ : HostView).observe ⟨false, true, 0x40002#19⟩ (midDecode 0 0 0 2)).bytes = [] := by decide

/-! ## The host's notation (R70, R71) -/

theorem test_parse_start : parseLine "START 16, strict".toList = some [.start 16#16 true] := by decide
theorem test_parse_start_hex : parseLine "START 0xFF ; capacity".toList = some [.start 255#16 false] := by decide
theorem test_parse_char : parseLine "CHAR ';' ; a comment".toList = some [.char 0x3B#8] := by decide
/-- 95_test_vectors.md 2.3: CHAR 'M' with its reserved bits set, and the largest such word's neighbour. -/
theorem test_parse_char_reserved_bits :
    parseLine "CHAR 0x1FF4D".toList = some [.charBits 0x1FF4D#17] ∧
    (AsmLine.charBits 0x1FF4D#17).word = some 0x1FF4D#19 ∧ parseLine "CHAR 0x20000".toList = none := by decide
/-- Log entry 19: other number forms than R70 writes. -/
theorem test_parse_number_forms :
    parseLine "RSVD 393216".toList = some [.rsvd 0#17] ∧ parseLine "CHAR 0x4d".toList = some [.char 0x4D#8] ∧
    parseLine "CHAR 0x04D".toList = some [.char 0x4D#8] ∧ parseLine "CHAR 77".toList = none := by decide
theorem test_parse_char_hex : parseLine "CHAR 0x4D".toList = some [.char 0x4D#8] := by decide
/-- Log entry 18: a quoted character with code point 0xFF stands for the code 0xFF, one above is not read. -/
theorem test_quotable_edge : isQuotable (Char.ofNat 0xFF) = true ∧ isQuotable (Char.ofNat 0x100) = false := by decide
theorem test_parse_rsvd : parseLine "RSVD 0x7FFFF".toList = some [.rsvd 0x1FFFF#17] := by decide
theorem test_parse_rsvd_range : parseLine "RSVD 0x5FFFF".toList = none := by decide
theorem test_parse_cap_range : parseLine "START 65536".toList = none := by decide
theorem test_lines_of_decode :
    decodeLines 8#16 false [0x4D#8, 0x59#8] = [.start 8#16 false, .char 0x4D#8, .char 0x59#8, .endInput] := by decide
theorem test_word_of_start : (AsmLine.start 16#16 true).word = some 0x50010#19 := by decide
theorem test_clamp : clampCapacity 65536 = 65535#16 := by decide

/-! ## Witnesses: states and operands that meet the hypotheses of each statement -/

/-- A state that meets the invariants, mid-decode. -/
theorem midDecode_inv : Inv (midDecode 12 5 0 16) := ⟨by decide, by decide, by decide⟩
theorem reset_inv : Inv State.reset := ⟨by decide, by decide, by decide⟩
theorem midDecode_consistent : Consistent (midDecode 12 5 0 16) :=
  ⟨by decide, by decide, by decide, by decide, by decide, by decide⟩
/-- A stopped, consistent state: an overflow with NOUT = CAP = 1. -/
theorem overflow_consistent : Consistent ⟨⟨false, 3#3, 0x1337#13, 7#4, 1#16, 1#16, false, false, 0x66#8⟩, []⟩ :=
  ⟨by decide, by decide, by decide, by decide, by decide, by decide⟩

theorem witness_ResetEdgeGivesResetValues :
    (withReset afterPad).inputs = ⟨true, true, 0x0004D#19⟩ :: [] ∧ (⟨true, true, 0x0004D#19⟩ : EdgeInput).rst = true := by
  decide
theorem witness_IdleEdgesWriteOnlyValid :
    (withIdle (withIdle afterPad)).inputs = List.replicate 2 ⟨false, false, 0x0004D#19⟩ ++ [] := by decide
theorem witness_ExhaustedInputsAreIdleEdges : afterPad.inputs = [] := by decide
theorem witness_StepRunsDecodedCommand :
    (withCommand 0x7FFFF#19 afterPad).inputs = ⟨false, true, 0x7FFFF#19⟩ :: [] := by decide
theorem witness_OpcodeFieldSelectsCommand :
    (0x1FFFF#19).extractLsb' 17 2 = 0b00#2 ∧ (0x20000#19).extractLsb' 17 2 = 0b01#2 ∧
    (0x3FFFF#19).extractLsb' 17 2 = 0b01#2 ∧ (0x40000#19).extractLsb' 17 2 = 0b10#2 ∧
    (0x5FFFF#19).extractLsb' 17 2 = 0b10#2 ∧ (0x60000#19).extractLsb' 17 2 = 0b11#2 ∧
    (0x7FFFF#19).extractLsb' 17 2 = 0b11#2 := by decide
theorem witness_DecodeOfEncodeIsIdentity :
    (Instr.charSkip 0x1FF#9 0xFF#8).wellFormed = true ∧ (Instr.charAccept7 0x1FF#9).wellFormed = true ∧
    (Instr.start true 0xFFFF#16).wellFormed = true := by decide
theorem witness_ReservedBitsAreIgnored :
    (0x1FF41#19).extractLsb' 17 2 = 0b00#2 ∧ (0x3FFFF#19).extractLsb' 17 2 = 0b01#2 := by decide
theorem witness_AcceptRowsCarryTheRomValue :
    (Instr.charAcceptA 0#9).acceptVal = some 0#5 ∧ (Instr.charAccept7 0#9).acceptVal = some 31#5 ∧
    romRead 0x41#8 = 0b01#2 ++ 0#5 ∧ romRead 0x37#8 = 0b01#2 ++ 31#5 := by decide
theorem witness_CharFollowsThePseudocode :
    ([(Instr.charPad 0#9, 0x3D#8), (.charSkip 0#9 0xFF#8, 0xFF#8), (.charAccept7 0#9, 0x37#8)].all
      fun p => p.1.charCode == some p.2) = true ∧ (midDecode 0 7 0 0).cnt.toNat ≤ 7 := by decide
theorem witness_StoppedCharIsDiscarded :
    (Instr.charAcceptA 0#9).charCode = some 0x41#8 ∧ afterPad.phase = false := by decide
theorem witness_PadStopsTheDecode : (midDecode 0 0 0 0).phase = true := by decide
theorem witness_LenientSkipWritesNothing :
    romRead 0xFF#8 = 0x00#7 ∧ (midDecode 0 0 0 0).phase = true ∧ (midDecode 0 0 0 0).strict = false := by decide
theorem witness_StrictSkipStopsWithInvalid :
    (midStrict 0 0 0 0).phase = true ∧ (midStrict 0 0 0 0).strict = true ∧ romRead 0x00#8 = 0x00#7 := by decide
/-- The last count with fewer than 8 bits after it is 2 (that all 32 rows have a value: test_accept_values). -/
theorem witness_AcceptShiftsItsValueIn :
    (Instr.charAcceptA 0#9).acceptVal = some 0#5 ∧ (midDecode 0 2 0 0).phase = true ∧
    (midDecode 0 2 0 0).cnt.toNat + 5 < 8 := by decide
theorem witness_AcceptEmitsTheTopByte_first :
    (Instr.charAccept7 0#9).acceptVal = some 31#5 ∧ (midDecode 0 3 0 1).phase = true ∧
    8 ≤ (midDecode 0 3 0 1).cnt.toNat + 5 ∧ (midDecode 0 3 0 1).nout ≠ (midDecode 0 3 0 1).cap := by decide
theorem witness_AcceptEmitsTheTopByte_last :
    (midDecode 0 7 65534 65535).cnt.toNat ≤ 7 ∧ (midDecode 0 7 65534 65535).nout ≠ (midDecode 0 7 65534 65535).cap := by
  decide
theorem witness_AcceptOverflowsOnlyWhenFull :
    (Instr.charAcceptA 0#9).acceptVal = some 0#5 ∧ (midDecode 0 3 1 1).nout = (midDecode 0 3 1 1).cap ∧
    8 ≤ (midDecode 0 3 1 1).cnt.toNat + 5 ∧ (midDecode 0 2 0 0).nout = (midDecode 0 2 0 0).cap ∧
    ¬8 ≤ (midDecode 0 2 0 0).cnt.toNat + 5 ∧ (midDecode 0 7 0 1).nout ≠ (midDecode 0 7 0 1).cap ∧
    (midDecode 0 7 0 1).phase = true ∧ (midDecode 0 7 0 1).cnt.toNat ≤ 7 := by decide
theorem witness_AcceptOutcomeByHeldCount :
    ∀ n : Fin 8, (midDecode 0 (BitVec.ofNat 4 n) 0 1).cnt.toNat = n ∧
      (midDecode 0 (BitVec.ofNat 4 n) 0 1).nout ≠ (midDecode 0 (BitVec.ofNat 4 n) 0 1).cap ∧
      (midDecode 0 (BitVec.ofNat 4 n) 0 1).phase = true := by decide
theorem witness_EightSymbolsGiveFiveBytes :
    (List.replicate 8 (Instr.charAccept7 0#9)).map Instr.acceptVal = (List.replicate 8 31#5).map some ∧
    (midDecode 0 0 65530 65535).phase = true ∧ (midDecode 0 0 65530 65535).cnt = 0#4 ∧ (midDecode 0 0 65530 65535).nout.toNat + 5 ≤ 65535 := by decide
theorem witness_UnreachableCountFaults :
    8 ≤ (midDecode 0 8 0 0).cnt.toNat ∧ 8 ≤ (midDecode 0 15 0 0).cnt.toNat ∧ (midDecode 0 15 0 0).phase = true := by
  decide
theorem witness_EndStopsTheDecode : (midDecode 0 0 0 0).phase = true := by decide
theorem witness_StoppedEndIsDiscarded : afterPad.phase = false := by decide
theorem witness_CommandsKeepTheOtherRegisters :
    (Instr.charAcceptZ 0#9).wellFormed = true ∧
    exec (.charAcceptZ 0#9) (midDecode 0x00C 5 0 16) =
      .next (nextOr State.reset (exec (.charAcceptZ 0#9) (midDecode 0x00C 5 0 16))) := ⟨by decide, rfl⟩
theorem witness_CommandsKeepTheOtherRegisters_noValue :
    (Instr.charPad 0#9).acceptVal = none ∧
    exec (.charPad 0#9) afterPad = .next { afterPad with ovalid := false } := ⟨by decide, rfl⟩
/-- A step of each kind answers a next state: reset, START, another command, idle. -/
theorem witness_CapacityIsWrittenOnlyByStartAndReset :
    step (withReset afterPad) = .next (nextOr afterPad (step (withReset afterPad))) ∧
    step (withCommand 0x5FFFF#19 afterPad) = .next (nextOr afterPad (step (withCommand 0x5FFFF#19 afterPad))) ∧
    step (withCommand 0x20000#19 afterPad) = .next (nextOr afterPad (step (withCommand 0x20000#19 afterPad))) ∧
    step (withIdle afterPad) = .next (nextOr afterPad (step (withIdle afterPad))) := ⟨rfl, rfl, rfl, rfl⟩
theorem witness_OutputByteIsWrittenOnlyByEmission :
    (step (withIdle afterPad) = .next (nextOr afterPad (step (withIdle afterPad))) ∧
      (nextOr afterPad (step (withIdle afterPad))).ovalid = false ∧
      (withIdle afterPad).inputs = ⟨false, false, 0x0004D#19⟩ :: []) ∧
    (step (withReset afterPad) = .next (nextOr afterPad (step (withReset afterPad))) ∧
      (withReset afterPad).inputs = ⟨true, true, 0x0004D#19⟩ :: []) := ⟨⟨rfl, by decide, rfl⟩, rfl, rfl⟩
theorem witness_ValidExactlyAfterAnEmission :
    step (withCommand 0x0005A#19 (midDecode 0x00C 5 0 16)) =
      .next (nextOr afterPad (step (withCommand 0x0005A#19 (midDecode 0x00C 5 0 16)))) ∧
    (nextOr afterPad (step (withCommand 0x0005A#19 (midDecode 0x00C 5 0 16)))).ovalid = true := ⟨rfl, by decide⟩
theorem witness_AtMostOneBytePerCommand :
    exec (.charAcceptZ 0#9) (midDecode 0x00C 5 0 16) =
      .next (nextOr State.reset (exec (.charAcceptZ 0#9) (midDecode 0x00C 5 0 16))) := rfl
theorem witness_StrictModeMattersOnlyToInvalidCharacters :
    (Instr.charAcceptQ 0#9).wellFormed = true ∧
    exec (.charAcceptQ 0#9) (midDecode 0x1337 7 1 1) =
      .next (nextOr State.reset (exec (.charAcceptQ 0#9) (midDecode 0x1337 7 1 1))) := ⟨by decide, rfl⟩
/-- Each of the four events stops a decode in ACTIVE. -/
theorem witness_FourEventsStopADecode :
    ([(Instr.charPad 0#9, midDecode 12 5 0 8), (.endInput 0#17, midDecode 12 5 0 8),
      (.charAcceptY 0#9, midDecode 12 5 0 0), (.charSkip 0#9 0x20#8, midStrict 12 5 0 8)].all
      fun p => p.1.wellFormed && p.2.phase && nextSat (exec p.1 p.2) (fun t => !t.phase)) = true := by decide
theorem witness_FourEventsStopADecode_stopped :
    afterPad.phase = false ∧ exec (.charAcceptA 0#9) afterPad = .next { afterPad with ovalid := false } := ⟨rfl, rfl⟩
theorem witness_ResultStaysUntilStartOrReset :
    (withCommand 0x20000#19 afterPad).inputs = ⟨false, true, 0x20000#19⟩ :: [] ∧
    (withCommand 0x20000#19 afterPad).phase = false ∧ (⟨false, true, 0x20000#19⟩ : EdgeInput).restarts = false ∧
    (⟨false, true, 0x7FFFF#19⟩ : EdgeInput).restarts = false ∧ (⟨false, false, 0x40000#19⟩ : EdgeInput).restarts = false := by
  decide
theorem witness_NoEmissionAtAStop :
    step (withCommand 0x0005A#19 (midDecode 0x00C 5 0 16)) =
      .next (nextOr afterPad (step (withCommand 0x0005A#19 (midDecode 0x00C 5 0 16)))) ∧
    (nextOr afterPad (step (withCommand 0x0005A#19 (midDecode 0x00C 5 0 16)))).ovalid = true := ⟨rfl, by decide⟩
/-- The last byte of a full-size buffer: index 65534 below CAP 65535. -/
theorem witness_PresentedIndexIsBelowCapacity :
    Inv (withCommand 0x0005A#19 (midDecode 0x00C 5 65534 65535)) ∧
    step (withCommand 0x0005A#19 (midDecode 0x00C 5 65534 65535)) =
      .next (nextOr afterPad (step (withCommand 0x0005A#19 (midDecode 0x00C 5 65534 65535)))) ∧
    (nextOr afterPad (step (withCommand 0x0005A#19 (midDecode 0x00C 5 65534 65535)))).presented = some (65534, 0x66#8) :=
  ⟨⟨by decide, by decide, by decide⟩, rfl, by decide⟩
theorem witness_AStopIsASuccessOrAFailure :
    Consistent ⟨⟨false, 3#3, 0x1337#13, 7#4, 1#16, 1#16, false, false, 0x66#8⟩, []⟩ ∧ (3#3 : ReasonCode) ≠ 0#3 :=
  ⟨overflow_consistent, by decide⟩
theorem witness_EveryEdgeKeepsTheInvariants :
    Inv (withCommand 0x00059#19 (midDecode 12 5 0 16)) ∧
    step (withCommand 0x00059#19 (midDecode 12 5 0 16)) =
      .next (nextOr afterPad (step (withCommand 0x00059#19 (midDecode 12 5 0 16)))) :=
  ⟨⟨by decide, by decide, by decide⟩, rfl⟩
theorem witness_EveryEdgeKeepsConsistency :
    Inv (withCommand 0x00059#19 (midDecode 12 5 0 16)) ∧ Consistent (withCommand 0x00059#19 (midDecode 12 5 0 16)) ∧
    step (withCommand 0x00059#19 (midDecode 12 5 0 16)) =
      .next (nextOr afterPad (step (withCommand 0x00059#19 (midDecode 12 5 0 16)))) :=
  ⟨⟨by decide, by decide, by decide⟩, ⟨by decide, by decide, by decide, by decide, by decide, by decide⟩, rfl⟩
theorem witness_NoEdgeFaultsUnderTheInvariants : Inv (midDecode 0 7 1 1) := ⟨by decide, by decide, by decide⟩
theorem witness_EveryRunAfterAResetEdgeGoesOn :
    (withReset (midDecode 0 15 9 1)).inputs = ⟨true, true, 0x0004D#19⟩ :: [] := by decide
/-- ACC 0x1337 and 0x0037 hold the same 7 pending bits. -/
theorem witness_StaleBitsReachNoOutput :
    SameButStale (withCommand 0x00051#19 (midDecode 0x1337 7 1 5)) (withCommand 0x00051#19 (midDecode 0x0037 7 1 5)) ∧
    step (withCommand 0x00051#19 (midDecode 0x1337 7 1 5)) =
      .next (nextOr afterPad (step (withCommand 0x00051#19 (midDecode 0x1337 7 1 5)))) ∧
    midDecode 0x1337 7 1 5 ≠ midDecode 0x0037 7 1 5 :=
  ⟨⟨by decide, by decide⟩, rfl, by decide⟩
theorem witness_HostHoldsNoutBytes :
    Inv (midDecode 0x199 2 1 16) ∧ (⟨[0x66#8]⟩ : HostView).bytes.length = (midDecode 0x199 2 1 16).nout.toNat :=
  ⟨⟨by decide, by decide, by decide⟩, by decide⟩
/-- After 'M', 'Z': one byte, two bits held; and the state after reset has accepted nothing. -/
theorem witness_StreamLawHoldsAfterEveryEdge :
    Inv (midDecode 0x199 2 1 1) ∧ Stream [12#5, 25#5] (midDecode 0x199 2 1 1) ∧ [0x66#8] = packedBytes [12#5, 25#5] 1 :=
  ⟨⟨by decide, by decide, by decide⟩, ⟨by decide, by decide, by decide⟩, by decide⟩
theorem witness_StreamLawHoldsAfterEveryEdge_reset :
    Stream [] State.reset ∧ HostView.empty.bytes = packedBytes [] State.reset.nout.toNat :=
  ⟨⟨by decide, by decide, by decide⟩, by decide⟩
/-- 95_test_vectors.md 2.4: `MY` with capacity 0 overflows; with capacity 65535 it gives 0x66. -/
theorem witness_LeastCapacityIsFiveEighths :
    decodeCall 0 false [0x4D#8, 0x59#8] State.reset = some ⟨0#16, 3#3, []⟩ ∧
    decodeCall 65535 false [0x4D#8, 0x59#8] State.reset = some ⟨1#16, 2#3, [0x66#8]⟩ := by decide
theorem witness_DecodeTakesLengthPlusTwoEdges :
    { afterPad with inputs := asmEdges (decodeLines 0 true [0x4D#8, 0x59#8]) }.inputs =
      asmEdges (decodeLines 0 true [0x4D#8, 0x59#8]) := rfl
theorem witness_EdgeDependsOnRegistersAndSampledInputs :
    edge ⟨false, true, 0x0005A#19⟩ (midDecode 0x00C 5 0 16) =
      .next (nextOr afterPad (edge ⟨false, true, 0x0005A#19⟩ (midDecode 0x00C 5 0 16))) := rfl
/-- An idle edge put right after an emission, before the next symbol. -/
theorem witness_IdleEdgesDoNotChangeTheObservation :
    Inv (midDecode 0x00C 5 0 16) ∧ ∀ e ∈ [(⟨false, false, 0x40000#19⟩ : EdgeInput)], e.rst = false ∧ e.cmdValid = false :=
  ⟨⟨by decide, by decide, by decide⟩, by decide⟩
theorem witness_StaleBitsReachNoObservation :
    (withCommand 0x00051#19 (midDecode 0x1337 7 1 5)).cnt.toNat ≤ 7 ∧
    SameButStale (withCommand 0x00051#19 (midDecode 0x1337 7 1 5)) (withCommand 0x00051#19 (midDecode 0x0037 7 1 5)) :=
  ⟨by decide, ⟨by decide, by decide⟩⟩
theorem witness_HostRecordGrowsByTheObservedBytes :
    Inv (withCommand 0x0005A#19 (midDecode 0x00C 5 0 16)) ∧
    ∀ e ∈ (withCommand 0x0005A#19 (midDecode 0x00C 5 0 16)).inputs, e.restarts = false :=
  ⟨⟨by decide, by decide, by decide⟩, by decide⟩

end Sys2Proof.Tests
end

section
/-! PROOFS. `Event` describes the next states of `exec` exactly, and it does not see the inputs still to come; so an edge is a
function of the nine registers and the inputs sampled at it (00_scope.md R13, 10_state.md R40). -/

namespace Sys2Proof.Machine

open Sys2Proof

/-- An accepted symbol that leaves fewer than 8 bits held (41_char.md R89). -/
theorem acceptSymbol_absorbs (v : Sym) (s : State) (h : s.cnt.toNat ≤ 2) :
    acceptSymbol v s = .next (hold (shiftIn s.acc v) (heldAfter s.cnt) s) := by
  have h8 : ¬ 8 ≤ s.cnt.toNat := by omega
  have hn : ¬ 8 ≤ heldAfter s.cnt := by rw [heldAfter]; omega
  rw [acceptSymbol, if_neg h8, if_neg hn]

/-- An accepted symbol that completes a byte, as far as the capacity decides (41_char.md R90, R92). -/
theorem acceptSymbol_fills (v : Sym) (s : State) (h : 3 ≤ s.cnt.toNat) (h' : s.cnt.toNat ≤ 7) :
    acceptSymbol v s =
      if s.nout = s.cap then .next (stop .overflow s)
      else .next (hold (shiftIn s.acc v) (heldAfter s.cnt - 8) (emit (topByte (shiftIn s.acc v) (heldAfter s.cnt)) s)) := by
  have h8 : ¬ 8 ≤ s.cnt.toNat := by omega
  have hn : 8 ≤ heldAfter s.cnt := by rw [heldAfter]; omega
  rw [acceptSymbol, if_neg h8, if_pos hn]

/-- In STOPPED every command but START is discarded (41_char.md R84, 42_control.md R104, R106). -/
theorem exec_stopped (i : Instr) (s : State) (hi : ∀ b capv, i ≠ .start b capv) (hp : s.phase = false) :
    exec i s = .next (clearValid s) := by
  cases hc : i.charCode with
  | some c => rw [exec_char i c s hc, charCmd_stopped c s hp]
  | none =>
    cases i <;> simp only [Instr.charCode, reduceCtorEq] at hc
    case start b capv => exact absurd rfl (hi b capv)
    case endInput r => simp [exec, execEndInput, hp]
    case rsvd x => rfl

/-- Each event of R32 is what `exec` does where it can happen: the other direction of `exec_event`. -/
theorem exec_of_event {i : Instr} {s t : State} (h : Event i s t) : exec i s = .next t := by
  cases h with
  | started b capv hi => subst hi; rfl
  | ended r hi hp => subst hi; simp [exec, execEndInput, hp]
  | reservedOp x hi => subst hi; rfl
  | discarded hi hp => exact exec_stopped i s hi hp
  | padded c hi hc hp => rw [exec_char i c s hi, charCmd_active c s hp, charActive, hc]
  | skipped c hi hc hp hs => simp [exec_char i c s hi, charCmd_active c s hp, charActive, hc, hs]
  | rejected c hi hc hp hs => simp [exec_char i c s hi, charCmd_active c s hp, charActive, hc, hs]
  | absorbed c v hi hc hp hn =>
    rw [exec_char i c s hi, charCmd_accept c v s hp hc]
    exact acceptSymbol_absorbs v (clearValid s) hn
  | emitted c v hi hc hp hn hn' hr =>
    rw [exec_char i c s hi, charCmd_accept c v s hp hc]
    exact (acceptSymbol_fills v (clearValid s) hn hn').trans (if_neg hr)
  | overflowed c v hi hc hp hn hn' hf =>
    rw [exec_char i c s hi, charCmd_accept c v s hp hc]
    exact (acceptSymbol_fills v (clearValid s) hn hn').trans (if_pos hf)

/-- The next states of a command are exactly the events of R32. -/
theorem exec_eq_next_iff (i : Instr) (s t : State) : exec i s = .next t ↔ Event i s t :=
  ⟨exec_event i s t, exec_of_event⟩

/-- An event's conditions and writes are over the registers: the inputs still to come are neither read nor changed. -/
theorem Event.with_inputs {i : Instr} {s t : State} (h : Event i s t) (later : List EdgeInput) :
    Event i { s with inputs := later } { t with inputs := later } := by
  cases h with
  | started b capv hi => exact .started b capv hi
  | ended r hi hp => exact .ended r hi hp
  | reservedOp x hi => exact .reservedOp x hi
  | discarded hi hp => exact .discarded hi hp
  | padded c hi hc hp => exact .padded c hi hc hp
  | skipped c hi hc hp hs => exact .skipped c hi hc hp hs
  | rejected c hi hc hp hs => exact .rejected c hi hc hp hs
  | absorbed c v hi hc hp hn => exact .absorbed c v hi hc hp hn
  | emitted c v hi hc hp hn hn' hr => exact .emitted c v hi hc hp hn hn' hr
  | overflowed c v hi hc hp hn hn' hf => exact .overflowed c v hi hc hp hn hn' hf

/-- A command's next state depends on the inputs still to come only by keeping them. -/
theorem exec_with_inputs {i : Instr} {s t : State} (h : exec i s = .next t) (later : List EdgeInput) :
    exec i { s with inputs := later } = .next { t with inputs := later } :=
  (exec_eq_next_iff ..).mpr (((exec_eq_next_iff ..).mp h).with_inputs later)

/-- Settles O56, by the kind of edge (10_state.md R29): reset and an idle edge write registers only, and a command is one of
the events, none of which sees the inputs still to come. -/
theorem edgeDependsOnRegistersAndSampledInputs : Obligations.EdgeDependsOnRegistersAndSampledInputs := by
  intro e s t later h
  cases hr : e.rst with
  | true =>
    rw [edge_reset e _ hr] at h ⊢
    cases h
    rfl
  | false =>
    cases hv : e.cmdValid with
    | true =>
      rw [edge_command e _ hr hv] at h ⊢
      exact exec_with_inputs h later
    | false =>
      rw [edge_idle e _ hr hv] at h ⊢
      cases h
      rfl

end Sys2Proof.Machine
end

section
/-! PROOFS. What an event of R32 writes of CAP, STRICT, OVALID and OBYTE, and what it keeps; the same of a step, by the kind
of its edge (10_state.md R23–R26, R29, R35). -/

namespace Sys2Proof.Machine

open Sys2Proof

/-! ## The decoder: START by its opcode alone, and only well-formed commands -/

/-- A row a CHAR word with code c can decode to: one of that code, and CHAR.SKIP only if no earlier row has it. -/
def IsRowOf (c : CharCode) (i : Instr) : Prop := i.charCode = some c ∧ i.wellFormed = true

/-- A CHAR word decodes to the row of its code: down the chain of R68, the first row whose code it is. -/
theorem isRowOf_decodeChar (r : BitVec 9) (c : CharCode) : IsRowOf c (decodeChar r c) := by
  unfold decodeChar
  repeat
    refine iteInduction (motive := IsRowOf c) (fun hc => ⟨congrArg some hc.symm, rfl⟩) (fun _ => ?_)
  have hskip : isSkipCode c = true := by
    simp only [isSkipCode, isAlphabetCode, Bool.and_eq_true, bne_iff_ne, Bool.not_eq_true',
      Bool.or_eq_false_iff, Bool.and_eq_false_iff, decide_eq_false_iff_not]
    bv_omega
  exact ⟨rfl, hskip⟩

/-- Every word decodes to a well-formed command (30_encoding.md R68). -/
theorem wellFormed_decode (w : CmdWord) : (decode w).wellFormed = true := by
  unfold decode
  split
  · rfl
  · rfl
  · rfl
  · exact (isRowOf_decodeChar _ _).2

/-- A word with START's opcode. -/
theorem decode_of_op_start {w : CmdWord} (h : cmdOp w = 0b10#2) : decode w = .start (cmdS w) (cmdCapv w) := by
  rw [decode, h]
  rfl

/-- A word with another opcode is no START. -/
theorem decode_ne_start {w : CmdWord} (h : cmdOp w ≠ 0b10#2) (b : Bool) (capv : Cap) :
    decode w ≠ .start b capv := by
  intro hd
  unfold decode at hd
  split at hd
  case h_1 hop => exact h hop
  case h_2 => cases hd
  case h_3 => cases hd
  case h_4 =>
    have hrow := isRowOf_decodeChar (cmdCharRsv w) (cmdC w)
    rw [hd] at hrow
    cases hrow.1

/-! ## The events -/

/-- START does one thing (42_control.md R99). -/
theorem Event.eq_of_start {b : Bool} {capv : Cap} {s t : State} (h : Event (.start b capv) s t) :
    t = beginDecode b capv (clearValid s) := by
  have he : Host.Outcome.next (beginDecode b capv (clearValid s)) = .next t := exec_of_event h
  cases he
  rfl

/-- No command writes the host's inputs. -/
theorem Event.inputs_eq {i : Instr} {s t : State} (h : Event i s t) : t.inputs = s.inputs := by
  cases h <;> rfl

/-- CAP and STRICT are START's to write (R23, R24). -/
theorem Event.cap_strict_eq {i : Instr} {s t : State} (h : Event i s t) (hi : ∀ b capv, i ≠ .start b capv) :
    t.cap = s.cap ∧ t.strict = s.strict := by
  cases h with
  | started b capv hs => exact absurd hs (hi b capv)
  | _ => exact ⟨rfl, rfl⟩

/-- OBYTE is an emission's to write (R26). -/
theorem Event.obyte_eq {i : Instr} {s t : State} (h : Event i s t) (hv : t.ovalid = false) : t.obyte = s.obyte := by
  cases h with
  | emitted => exact absurd hv.symm Bool.false_ne_true
  | _ => rfl

/-- An event sets OVALID exactly if it is an emission (R25): no other event can happen in a state where an accepted
symbol completes a byte that there is room for. -/
theorem Event.ovalid_iff {i : Instr} {s t : State} (h : Event i s t) (hwf : i.wellFormed = true) :
    t.ovalid = true ↔
      s.phase = true ∧ 3 ≤ s.cnt.toNat ∧ s.nout ≠ s.cap ∧ ∃ v, i.acceptVal = some v := by
  constructor
  · intro hv
    cases h with
    | emitted c v hi hc hp hn _ hr => exact ⟨hp, hn, hr, v, acceptVal_of_class i c v hwf hi hc⟩
    | _ => exact absurd hv Bool.false_ne_true
  · rintro ⟨hp, hn, hr, v, hv⟩
    obtain ⟨c, hi, hc⟩ := charCode_of_acceptVal i v hv
    have he := exec_of_event h
    rw [exec_char i c s hi, charCmd_accept c v s hp hc] at he
    rcases acceptSymbol_cases v (clearValid s) with ⟨_, ha⟩ | ⟨hn', _⟩ | ⟨_, _, hf, _⟩ | ⟨_, _, _, ha⟩
    · rw [ha] at he
      cases he
    · rw [clearValid_cnt] at hn'
      omega
    · exact absurd hf hr
    · rw [ha] at he
      cases he
      rfl

/-! ## The step -/

/-- What a step did whose inputs begin with e: an event of one of the three kinds of edge (R29). -/
theorem step_cons_cases {s t : State} {e : EdgeInput} {rest : List EdgeInput} (hin : s.inputs = e :: rest)
    (h : step s = .next t) :
    (e.rst = true ∧ t = resetState { s with inputs := rest }) ∨
    (e.rst = false ∧ e.cmdValid = true ∧ Event (decode e.cmd) { s with inputs := rest } t) ∨
    (e.rst = false ∧ e.cmdValid = false ∧ t = clearValid { s with inputs := rest }) := by
  have hc := step_cases s t h
  rwa [sampleInputs_cons s e rest hin] at hc

/-- Settles O1: the reset values of R35 are those that State.reset is written with. -/
theorem resetStateHasSpecValues : Obligations.ResetStateHasSpecValues := by
  unfold Obligations.ResetStateHasSpecValues
  decide

/-- Settles O35, by the kind of edge, and a command edge by whether the opcode is START's. -/
theorem capacityIsWrittenOnlyByStartAndReset : Obligations.CapacityIsWrittenOnlyByStartAndReset := by
  intro s t e rest hin h
  rcases step_cons_cases hin h with ⟨hr, rfl⟩ | ⟨hr, hv, he⟩ | ⟨hr, hv, rfl⟩
  · simp [hr]
  · by_cases hop : e.cmd.extractLsb' 17 2 = 0b10#2
    · rw [decode_of_op_start hop] at he
      simp [hr, hv, hop, he.eq_of_start, cmdCapv, cmdS]
    · obtain ⟨hcap, hstrict⟩ := he.cap_strict_eq (decode_ne_start hop)
      simp [hr, hop, hcap, hstrict]
  · simp [hr, hv]

/-- Settles O36: reset writes 0, and of the commands only an emission writes OBYTE. -/
theorem outputByteIsWrittenOnlyByEmission : Obligations.OutputByteIsWrittenOnlyByEmission := by
  intro s t e rest hin h
  rcases step_cons_cases hin h with ⟨hr, rfl⟩ | ⟨hr, _, he⟩ | ⟨hr, _, rfl⟩
  · simp [hr]
  · simpa [hr] using he.obyte_eq
  · simp [hr]

/-- Settles O37: reset and idle edges clear OVALID, and a command sets it exactly if it is an emission. -/
theorem validExactlyAfterAnEmission : Obligations.ValidExactlyAfterAnEmission := by
  intro s t e rest hin h
  rcases step_cons_cases hin h with ⟨hr, rfl⟩ | ⟨hr, hv, he⟩ | ⟨hr, hv, rfl⟩
  · simp [hr]
  · simpa [hr, hv] using he.ovalid_iff (wellFormed_decode e.cmd)
  · simp [hv]

end Sys2Proof.Machine
end

section
/-! PROOFS. Steps with CNT in its range: they go on, and keep it there. This much of R94 is enough for a run to have an
observation (10_state.md R40). -/

namespace Sys2Proof.Machine

open Sys2Proof

/-- CHAR in ACTIVE answers a next state unless CNT is out of its range. -/
theorem charActive_next (c : CharCode) (s : State) (h : s.cnt.toNat ≤ 7) : ∃ t, charActive c s = .next t := by
  unfold charActive
  cases classOf c with
  | pad => exact ⟨_, rfl⟩
  | skip =>
    cases hs : s.strict
    · exact ⟨_, if_neg Bool.false_ne_true⟩
    · exact ⟨_, if_pos rfl⟩
  | accept v =>
    rcases acceptSymbol_cases v s with ⟨h8, _⟩ | ⟨_, ha⟩ | ⟨_, _, _, ha⟩ | ⟨_, _, _, ha⟩
    · omega
    · exact ⟨_, ha⟩
    · exact ⟨_, ha⟩
    · exact ⟨_, ha⟩

/-- Every command answers a next state while CNT is in its range. -/
theorem exec_next (i : Instr) (s : State) (h : s.cnt.toNat ≤ 7) : ∃ t, exec i s = .next t := by
  cases hc : i.charCode with
  | some c =>
    rw [exec_char i c s hc]
    cases hp : s.phase
    · exact ⟨_, charCmd_stopped c s hp⟩
    · rw [charCmd_active c s hp]
      exact charActive_next c (clearValid s) h
  | none =>
    cases i <;> simp only [Instr.charCode, reduceCtorEq] at hc
    case start b capv => exact ⟨_, rfl⟩
    case endInput r =>
      cases hp : s.phase
      · exact ⟨_, exec_stopped (.endInput r) s nofun hp⟩
      · exact ⟨_, exec_of_event (.ended r rfl hp)⟩
    case rsvd x => exact ⟨_, rfl⟩

/-- Every command keeps CNT in its range (R93, R94). -/
theorem Event.cnt_le {i : Instr} {s t : State} (h : Event i s t) (hs : s.cnt.toNat ≤ 7) : t.cnt.toNat ≤ 7 := by
  cases h with
  | started => exact Nat.zero_le 7
  | absorbed c v hi hc hp hn =>
    rw [hold_cnt, heldAfter, count_toNat _ (by omega)]
    omega
  | emitted c v hi hc hp hn hn' hr =>
    rw [hold_cnt, heldAfter, count_toNat _ (by omega)]
    omega
  | _ => exact hs

/-- With CNT in its range, a step answers a next state, with CNT in its range again. -/
theorem step_next_of_cnt_le (s : State) (h : s.cnt.toNat ≤ 7) : ∃ t, step s = .next t ∧ t.cnt.toNat ≤ 7 := by
  have hcnt : (sampleInputs s).2.cnt.toNat ≤ 7 := by rwa [sampleInputs_cnt]
  rw [step, nextEdge]
  cases hr : (sampleInputs s).1.rst
  · cases hv : (sampleInputs s).1.cmdValid
    · exact ⟨_, edge_idle _ _ hr hv, hcnt⟩
    · obtain ⟨t, ht⟩ := exec_next (decode (sampleInputs s).1.cmd) _ hcnt
      exact ⟨t, (edge_command _ _ hr hv).trans ht, (exec_event _ _ _ ht).cnt_le hcnt⟩
  · exact ⟨_, edge_reset _ _ hr, Nat.zero_le 7⟩

/-- A step takes one input off the host's list. -/
theorem step_inputs {s t : State} (h : step s = .next t) : t.inputs = s.inputs.tail := by
  rcases step_cases s t h with ⟨_, rfl⟩ | ⟨_, _, he⟩ | ⟨_, _, rfl⟩
  · exact sampleInputs_inputs s
  · exact he.inputs_eq.trans (sampleInputs_inputs s)
  · exact sampleInputs_inputs s

end Sys2Proof.Machine
end

section
/-! PROOFS. The stale bits of ACC (10_state.md R33): a step of two states that differ in them only leads to two such states,
by the arithmetic of the shift-in on the pending bits, so a run's observation does not depend on them. -/

namespace Sys2Proof.Machine

open Sys2Proof

/-! ## The pending bits as numbers -/

/-- The bits held after a shift-in depend on the pending bits only. -/
theorem shiftIn_modEq {a b : Acc} {cnt : Count} (v : Sym) (hcnt : cnt.toNat ≤ 7)
    (h : a.toNat ≡ b.toNat [MOD 2 ^ cnt.toNat]) :
    (shiftIn a v).toNat ≡ (shiftIn b v).toNat [MOD 2 ^ heldAfter cnt] := by
  have shifted : 32 * a.toNat + v.toNat ≡ 32 * b.toNat + v.toNat [MOD 2 ^ heldAfter cnt] := by
    rw [heldAfter, pow_add, mul_comm (2 ^ cnt.toNat)]
    exact (h.mul_left' 32).add_right v.toNat
  have fits : 2 ^ heldAfter cnt ∣ 2 ^ 13 := pow_dvd_pow 2 (by rw [heldAfter]; omega)
  rw [shiftIn_toNat, shiftIn_toNat]
  calc (32 * a.toNat + v.toNat) % 2 ^ 13
      ≡ 32 * a.toNat + v.toNat [MOD 2 ^ heldAfter cnt] := (Nat.mod_modEq _ _).of_dvd fits
    _ ≡ 32 * b.toNat + v.toNat [MOD 2 ^ heldAfter cnt] := shifted
    _ ≡ (32 * b.toNat + v.toNat) % 2 ^ 13 [MOD 2 ^ heldAfter cnt] := ((Nat.mod_modEq _ _).of_dvd fits).symm

/-- The byte emitted is made of held bits. -/
theorem topByte_eq_of_modEq {t u : Acc} {n : Nat} (hn : 8 ≤ n) (h : t.toNat ≡ u.toNat [MOD 2 ^ n]) :
    topByte t n = topByte u n := by
  have hpow : 2 ^ (n - 8) * 256 = 2 ^ n := pow_sub_mul_pow 2 hn
  apply BitVec.eq_of_toNat_eq
  rw [topByte_toNat, topByte_toNat, ← Nat.mod_mul_right_div_self, ← Nat.mod_mul_right_div_self, hpow, h]

/-! ## The step -/

/-- A command does the same on two states that differ only in stale bits. Only CHAR.ACCEPT reads ACC, and it emits and
keeps pending bits only. -/
theorem Event.of_stale {i : Instr} {s t : State} (h : Event i s t) (a : Acc)
    (ha : s.acc.toNat ≡ a.toNat [MOD 2 ^ s.cnt.toNat]) :
    ∃ t', Event i { s with acc := a } t' ∧ SameButStale t t' := by
  cases h with
  | started b capv hi => exact ⟨_, .started b capv hi, rfl, rfl⟩
  | ended r hi hp => exact ⟨_, .ended r hi hp, rfl, ha⟩
  | reservedOp x hi => exact ⟨_, .reservedOp x hi, rfl, ha⟩
  | discarded hi hp => exact ⟨_, .discarded hi hp, rfl, ha⟩
  | padded c hi hc hp => exact ⟨_, .padded c hi hc hp, rfl, ha⟩
  | skipped c hi hc hp hs => exact ⟨_, .skipped c hi hc hp hs, rfl, ha⟩
  | rejected c hi hc hp hs => exact ⟨_, .rejected c hi hc hp hs, rfl, ha⟩
  | overflowed c v hi hc hp hn hn' hf => exact ⟨_, .overflowed c v hi hc hp hn hn' hf, rfl, ha⟩
  | absorbed c v hi hc hp hn =>
    have held := shiftIn_modEq v (by omega) ha
    refine ⟨_, .absorbed c v hi hc hp hn, rfl, ?_⟩
    rw [hold_cnt, count_toNat _ (by rw [heldAfter]; omega)]
    exact held
  | emitted c v hi hc hp hn hn' hr =>
    have held := shiftIn_modEq v hn' ha
    have byte := topByte_eq_of_modEq (by rw [heldAfter]; omega) held
    refine ⟨_, .emitted c v hi hc hp hn hn' hr, ?_, ?_⟩
    · rw [byte]
      rfl
    · rw [hold_cnt, count_toNat _ (by rw [heldAfter]; omega)]
      exact held.of_dvd (pow_dvd_pow 2 (Nat.sub_le _ 8))

/-- Sampling does not read ACC. -/
theorem sampleInputs_with_acc (s : State) (a : Acc) :
    sampleInputs { s with acc := a } = ((sampleInputs s).1, { (sampleInputs s).2 with acc := a }) := by
  rcases s with ⟨_, _ | _⟩ <;> rfl

/-- Two states that differ only in stale bits step to two states that differ only in stale bits. -/
theorem step_sameButStale {s s' t : State} (hs : SameButStale s s') (h : step s = .next t) :
    ∃ t', step s' = .next t' ∧ SameButStale t t' := by
  obtain ⟨hrest, hpending⟩ := hs
  rw [← hrest, step, nextEdge, sampleInputs_with_acc]
  rcases step_cases s t h with ⟨hr, rfl⟩ | ⟨hr, hv, he⟩ | ⟨hr, hv, rfl⟩
  · exact ⟨_, edge_reset _ _ hr, rfl, rfl⟩
  · obtain ⟨t', he', ht⟩ := he.of_stale s'.acc (by rw [sampleInputs_acc, sampleInputs_cnt]; exact hpending)
    exact ⟨t', (edge_command _ _ hr hv).trans (exec_of_event he'), ht⟩
  · refine ⟨_, edge_idle _ _ hr hv, rfl, ?_⟩
    rw [clearValid_acc, clearValid_cnt, sampleInputs_acc, sampleInputs_cnt]
    exact hpending

/-! ## The observation -/

/-- Settles O58, by induction on the number of edges: the two runs stay states that differ only in stale bits, none of
which an observation reads. -/
theorem staleBitsReachNoObservation : Obligations.StaleBitsReachNoObservation := by
  intro k
  induction k with
  | zero =>
    rintro s s' - ⟨hrest, -⟩
    refine ⟨_, observeRun_zero s, ?_⟩
    rw [← hrest]
    exact observeRun_zero _
  | succ k ih =>
    intro s s' hcnt hs
    obtain ⟨t, ht, htcnt⟩ := step_next_of_cnt_le s hcnt
    obtain ⟨t', ht', hst⟩ := step_sameButStale hs ht
    obtain ⟨o, ho, ho'⟩ := ih t t' htcnt hst
    have hemit : t'.emitted = t.emitted := by
      rw [← hst.rest]
      rfl
    refine ⟨_, observeRun_succ k s t o ht ho, ?_⟩
    rw [← hemit]
    exact observeRun_succ k s' t' o ht' ho'

end Sys2Proof.Machine
end

section
/-! PROOFS. The host's record beside the observation of a run (10_state.md R40, 42_control.md R110). -/

namespace Sys2Proof.Machine

open Sys2Proof

/-- Where no input to come is a START or a reset, the next edge is neither: past the list it is an idle edge. -/
theorem restarts_sampleInputs {s : State} (h : ∀ e ∈ s.inputs, e.restarts = false) :
    (sampleInputs s).1.restarts = false := by
  cases hin : s.inputs with
  | nil => rw [sampleInputs_nil s hin]; rfl
  | cons e rest =>
    rw [sampleInputs_cons s e rest hin]
    exact h e (by simp [hin])

/-- A run of the block and the host beside it, when its first step goes on. -/
theorem observedRun_succ (k : Nat) {s t : State} (h : HostView) (hs : step s = .next t) :
    observedRun (k + 1) (s, h) = observedRun k (t, h.observe (sampleInputs s).1 t) := by
  rw [observedRun, observedStep_next s t h hs]

/-- The host's record grows by the observed bytes; of the invariants, CNT in its range is enough. -/
theorem observedRun_appends (k : Nat) (s : State) (h : HostView) (hcnt : s.cnt.toNat ≤ 7)
    (hin : ∀ e ∈ s.inputs, e.restarts = false) :
    ∃ t h' o, observedRun k (s, h) = .next (t, h') ∧ observeRun k s = .next o ∧ h'.bytes = h.bytes ++ o.bytes ∧
      o.active = t.phase ∧ o.reason = t.reason ∧ o.nout = t.nout := by
  induction k generalizing s h with
  | zero => exact ⟨s, h, _, rfl, observeRun_zero s, (List.append_nil _).symm, rfl, rfl, rfl⟩
  | succ k ih =>
    obtain ⟨t, ht, htcnt⟩ := step_next_of_cnt_le s hcnt
    have htin : ∀ e ∈ t.inputs, e.restarts = false := by
      rw [step_inputs ht]
      exact fun e he => hin e (List.mem_of_mem_tail he)
    obtain ⟨u, h', o, hrun, hobs, hbytes, hfinal⟩ := ih t (h.observe (sampleInputs s).1 t) htcnt htin
    refine ⟨u, h', _, (observedRun_succ k h ht).trans hrun, observeRun_succ k s t o ht hobs, ?_, hfinal⟩
    rw [hbytes, observe_bytes h _ t (restarts_sampleInputs hin), List.append_assoc]

/-- Settles O59, by `observedRun_appends`. -/
theorem hostRecordGrowsByTheObservedBytes : Obligations.HostRecordGrowsByTheObservedBytes :=
  fun k s h hinv hin => observedRun_appends k s h hinv.cnt_le hin

end Sys2Proof.Machine
end

section
/-! PROOFS. The encoding (30_encoding.md R57–R69): the fields of a word, the command and the row of the opcode table that
they select, and the shapes of a ROM entry. -/

namespace Sys2Proof.Machine

open Sys2Proof

/-! ## The fields of a word -/

/-- A word is its opcode and its other 17 bits (R57). -/
theorem cmdOp_append_cmdLow17 (w : CmdWord) : cmdOp w ++ cmdLow17 w = w :=
  (BitVec.extractLsb'_append_extractLsb'_eq_extractLsb' (start₁ := 0) (len₁ := 17) rfl).trans BitVec.extractLsb'_eq_self

/-- A word with CHAR's opcode is the CHAR word of its reserved bits and its code (R59). -/
theorem charWord_cmdCharRsv_cmdC {w : CmdWord} (h : cmdOp w = 0b00#2) : charWord (cmdCharRsv w) (cmdC w) = w := by
  have low : cmdCharRsv w ++ cmdC w = cmdLow17 w :=
    BitVec.extractLsb'_append_extractLsb'_eq_extractLsb' rfl
  calc charWord (cmdCharRsv w) (cmdC w)
      = cmdOp w ++ (cmdCharRsv w ++ cmdC w) := by rw [h, charWord, BitVec.append_assoc]; rfl
    _ = w := by rw [low, cmdOp_append_cmdLow17]

/-- The mask of R64 clears the opcode. -/
theorem cmdOp_and_codeMask (w : CmdWord) : cmdOp (w &&& 0x000FF#19) = 0b00#2 := by
  rw [cmdOp, BitVec.extractLsb'_and, show (0x000FF#19).extractLsb' 17 2 = 0b00#2 from rfl, BitVec.and_zero]

/-- The mask of R64 keeps the code. -/
theorem cmdC_and_codeMask (w : CmdWord) : cmdC (w &&& 0x000FF#19) = cmdC w := by
  rw [cmdC, BitVec.extractLsb'_and, show (0x000FF#19).extractLsb' 0 8 = BitVec.allOnes 8 from rfl, BitVec.and_allOnes,
    ← cmdC]

/-! ## The command, by the opcode -/

/-- A word with CHAR's opcode. -/
theorem decode_of_op_char {w : CmdWord} (h : cmdOp w = 0b00#2) : decode w = decodeChar (cmdCharRsv w) (cmdC w) := by
  rw [decode, h]
  rfl

/-- A word with END's opcode. -/
theorem decode_of_op_end {w : CmdWord} (h : cmdOp w = 0b01#2) : decode w = .endInput (cmdLow17 w) := by
  rw [decode, h]
  rfl

/-- A word with the reserved opcode. -/
theorem decode_of_op_rsvd {w : CmdWord} (h : cmdOp w = 0b11#2) : decode w = .rsvd (cmdLow17 w) := by
  rw [decode, h]
  rfl

/-- A word with CHAR's opcode is a CHAR of the code in its low 8 bits. -/
theorem charCode_decode {w : CmdWord} (h : cmdOp w = 0b00#2) : (decode w).charCode = some (cmdC w) := by
  rw [decode_of_op_char h]
  exact (isRowOf_decodeChar _ _).1

/-- Settles O8, by the four opcodes. -/
theorem opcodeFieldSelectsCommand : Obligations.OpcodeFieldSelectsCommand := fun _ =>
  ⟨charCode_decode, fun h => ⟨_, decode_of_op_end h⟩, decode_of_op_start, fun h => ⟨_, decode_of_op_rsvd h⟩⟩

/-! ## Reserved bits -/

/-- A CHAR word does the CHAR command on its code, which holds no reserved bit. -/
theorem exec_decode_char {w : CmdWord} (h : cmdOp w = 0b00#2) (s : State) :
    exec (decode w) s = charCmd (cmdC w) s :=
  exec_char _ _ s (charCode_decode h)

/-- END reads none of its 17 reserved bits. -/
theorem exec_endInput_reserved (r r' : BitVec 17) (s : State) : exec (.endInput r) s = exec (.endInput r') s := rfl

/-- Settles O12: CHAR reads no bit but its code, which the mask keeps, and END reads no bit at all. -/
theorem reservedBitsAreIgnored : Obligations.ReservedBitsAreIgnored := by
  intro w s
  constructor
  · intro hop
    rw [exec_decode_char hop, exec_decode_char (cmdOp_and_codeMask w), cmdC_and_codeMask]
  · intro hop
    rw [decode_of_op_end hop, decode_of_op_end (w := 0x20000#19) rfl]
    exact exec_endInput_reserved _ _ s

/-! ## The row of a word -/

/-- The rows that fix the opcode only cover the words with that opcode. -/
theorem covers_opRow_iff (m : String) {p : CmdWord} {op : BitVec 2} (hp : op.setWidth 19 <<< 17 = p) (w : CmdWord) :
    OpRow.covers ⟨m, p, 0x60000#19⟩ w = true ↔ cmdOp w = op := by
  have injective : ∀ a b : BitVec 2, a.setWidth 19 <<< 17 = b.setWidth 19 <<< 17 → a = b := by decide
  have masked := opWord_and_opMask (cmdOp w) (cmdLow17 w)
  rw [cmdOp_append_cmdLow17] at masked
  rw [OpRow.covers, beq_iff_eq, masked, ← hp]
  exact ⟨injective _ _, fun h => by rw [h]⟩

/-- Of the words with CHAR's opcode, the rows that fix a code too cover those with that code. -/
theorem covers_codeRow_iff (m : String) {p : CmdWord} {c : CharCode} (hp : c.setWidth 19 = p) {w : CmdWord}
    (hop : cmdOp w = 0b00#2) : OpRow.covers ⟨m, p, 0x600FF#19⟩ w = true ↔ cmdC w = c := by
  have masked := charWord_and_codeMask (cmdCharRsv w) (cmdC w)
  rw [charWord_cmdCharRsv_cmdC hop] at masked
  rw [OpRow.covers, beq_iff_eq, masked, ← hp]
  refine ⟨fun h => ?_, fun h => by rw [h]⟩
  have back := congrArg (BitVec.setWidth 8) h
  rwa [BitVec.setWidth_setWidth_of_le _ (by decide), BitVec.setWidth_setWidth_of_le _ (by decide), BitVec.setWidth_eq,
    BitVec.setWidth_eq] at back

/-- The first of the rows that covers the word has the mnemonic of the command. -/
def FirstRowIs (w : CmdWord) (rows : List OpRow) (i : Instr) : Prop :=
  ∃ row, rows.find? (·.covers w) = some row ∧ row.mnemonic = i.mnemonic

/-- The first row covers the word. -/
theorem FirstRowIs.head {w : CmdWord} {row : OpRow} {rows : List OpRow} {i : Instr} (hc : row.covers w = true)
    (hm : row.mnemonic = i.mnemonic) : FirstRowIs w (row :: rows) i :=
  ⟨row, List.find?_cons_of_pos hc, hm⟩

/-- The first row does not cover the word. -/
theorem FirstRowIs.tail {w : CmdWord} {row : OpRow} {rows : List OpRow} {i : Instr} (hc : ¬ row.covers w = true)
    (h : FirstRowIs w rows i) : FirstRowIs w (row :: rows) i := by
  obtain ⟨found, hfind, hm⟩ := h
  exact ⟨found, (List.find?_cons_of_neg (p := fun r : OpRow => r.covers w) hc).trans hfind, hm⟩

/-- One step down the table and down the decoder's chain at once: the first row covers the word exactly if the chain's
first test holds. -/
theorem FirstRowIs.ite {w : CmdWord} {row : OpRow} {rows : List OpRow} {C : Prop} [Decidable C] {i j : Instr}
    (hc : row.covers w = true ↔ C) (hm : row.mnemonic = i.mnemonic) (h : FirstRowIs w rows j) :
    FirstRowIs w (row :: rows) (if C then i else j) :=
  iteInduction (fun hC => .head (hc.mpr hC) hm) (fun hC => .tail (mt hc.mp hC) h)

/-- The rows of the CHAR commands and the decoder's chain go through the codes in the same order. -/
theorem firstRowIs_decodeChar {w : CmdWord} (hop : cmdOp w = 0b00#2) (r : BitVec 9) :
    FirstRowIs w (opcodeTable.drop 3) (decodeChar r (cmdC w)) := by
  simp only [opcodeTable, opcodeRowsControl, opcodeRowsAccept, List.cons_append, List.nil_append, List.drop_succ_cons,
    List.drop_zero]
  unfold decodeChar
  repeat
    refine .ite (covers_codeRow_iff _ (by decide) hop) rfl ?_
  exact .head ((covers_opRow_iff _ (by decide) w).mpr hop) rfl

/-- The table begins with the rows of the three opcodes that are not CHAR's. -/
theorem opcodeTable_eq :
    opcodeTable = ⟨"START", 0x40000#19, 0x60000#19⟩ :: ⟨"END", 0x20000#19, 0x60000#19⟩ ::
      ⟨"RSVD", 0x60000#19, 0x60000#19⟩ :: opcodeTable.drop 3 := rfl

/-- Settles O9, by the opcode: a word is not covered by the rows of the other opcodes, and a CHAR word goes down the
table as the decoder goes down its chain. -/
theorem everyWordSelectsItsRow : Obligations.EveryWordSelectsItsRow := by
  intro w
  have hstart := covers_opRow_iff "START" (p := 0x40000#19) (op := 0b10#2) (by decide) w
  have hend := covers_opRow_iff "END" (p := 0x20000#19) (op := 0b01#2) (by decide) w
  have hrsvd := covers_opRow_iff "RSVD" (p := 0x60000#19) (op := 0b11#2) (by decide) w
  change FirstRowIs w opcodeTable (decode w)
  rw [opcodeTable_eq]
  have hops : ∀ op : BitVec 2, op = 0b00#2 ∨ op = 0b01#2 ∨ op = 0b10#2 ∨ op = 0b11#2 := by decide
  rcases hops (cmdOp w) with hop | hop | hop | hop
  · rw [decode_of_op_char hop]
    exact .tail (by rw [hstart, hop]; decide) (.tail (by rw [hend, hop]; decide)
      (.tail (by rw [hrsvd, hop]; decide) (firstRowIs_decodeChar hop _)))
  · rw [decode_of_op_end hop]
    exact .tail (by rw [hstart, hop]; decide) (.head (hend.mpr hop) rfl)
  · rw [decode_of_op_start hop]
    exact .head (hstart.mpr hop) rfl
  · rw [decode_of_op_rsvd hop]
    exact .tail (by rw [hstart, hop]; decide) (.tail (by rw [hend, hop]; decide) (.head (hrsvd.mpr hop) rfl))

/-! ## The shapes of a ROM entry -/

/-- A ROM entry is a hit with a value, the padding entry or the invalid one (R65). -/
theorem romRead_shape (c : CharCode) :
    (∃ v, romRead c = entryHit v) ∨ romRead c = entryPad ∨ romRead c = entryInvalid := by
  unfold romRead
  split
  · exact .inr (.inl rfl)
  · split
    · exact .inl ⟨_, rfl⟩
    · exact .inr (.inr rfl)

/-- The entry of an alphabet character is a hit with its position in the alphabet (R74). -/
theorem romRead_alphabet : ∀ v : Sym, romRead (charCodeOf (alphabet.getD v.toNat '=')) = entryHit v := by decide

/-- A hit is not padding. -/
theorem entryPadf_entryHit : ∀ v : Sym, entryPadf (entryHit v) = false := by decide

/-- Settles O16, by `romRead_shape`: one flag is 0 in each of the shapes. -/
theorem romEntriesHaveThreeShapes : Obligations.RomEntriesHaveThreeShapes := by
  refine ⟨fun c => ⟨?_, romRead_shape c⟩, fun v => ⟨_, romRead_alphabet v⟩, ⟨padChar, rfl⟩, ⟨0x00#8, by decide⟩⟩
  rintro ⟨hpad, hhit⟩
  rcases romRead_shape c with ⟨v, h⟩ | h | h
  · rw [h] at hpad
    exact absurd hpad (Bool.eq_false_iff.mp (entryPadf_entryHit v))
  · rw [h] at hhit
    exact absurd hhit (by decide)
  · rw [h] at hpad
    exact absurd hpad (by decide)

end Sys2Proof.Machine
end

section
/-! PROOFS. The lookup table (40_lookup.md R73–R80): a code is `=`, the code of one of the 32 symbols or a code of the
CHAR.SKIP row, and each of the three has its entry. -/

namespace Sys2Proof.Machine

open Sys2Proof

/-! ## The codes -/

/-- The code of the alphabet's character of value v. -/
def symbolCode (v : Sym) : CharCode := charCodeOf (alphabet.getD v.toNat '=')

/-- The letters' values follow their codes (R75). -/
theorem symbolCode_toNat_letter : ∀ v : Sym, v.toNat < 26 → (symbolCode v).toNat = 0x41 + v.toNat := by decide

/-- The digits' values follow their codes (R76). -/
theorem symbolCode_toNat_digit : ∀ v : Sym, 26 ≤ v.toNat → (symbolCode v).toNat = 0x32 + (v.toNat - 26) := by decide

/-- A code from 'A' to 'Z' is a symbol's, and gives its value (R75). -/
theorem exists_symbolCode_of_letter {c : CharCode} (h : 0x41 ≤ c.toNat ∧ c.toNat ≤ 0x5A) :
    ∃ v, c = symbolCode v ∧ v.toNat = c.toNat - 0x41 := by
  refine ⟨BitVec.ofNatLT (c.toNat - 0x41) (by omega), ?_, rfl⟩
  apply BitVec.eq_of_toNat_eq
  rw [symbolCode_toNat_letter _ (by rw [BitVec.toNat_ofNatLT]; omega), BitVec.toNat_ofNatLT]
  omega

/-- A code from '2' to '7' is a symbol's, and gives its value (R76). -/
theorem exists_symbolCode_of_digit {c : CharCode} (h : 0x32 ≤ c.toNat ∧ c.toNat ≤ 0x37) :
    ∃ v, c = symbolCode v ∧ v.toNat = 26 + (c.toNat - 0x32) := by
  refine ⟨BitVec.ofNatLT (26 + (c.toNat - 0x32)) (by omega), ?_, rfl⟩
  apply BitVec.eq_of_toNat_eq
  rw [symbolCode_toNat_digit _ (by rw [BitVec.toNat_ofNatLT]; omega), BitVec.toNat_ofNatLT]
  omega

/-- The padding code by its number. -/
theorem eq_padChar_of_toNat {c : CharCode} (h : c.toNat = 0x3D) : c = padChar := BitVec.eq_of_toNat_eq h

/-- The CHAR.SKIP row has the codes that the other rows of the table leave (R78). -/
theorem isSkipCode_of_toNat {c : CharCode} (hdigit : ¬ (0x32 ≤ c.toNat ∧ c.toNat ≤ 0x37)) (hpad : ¬ c.toNat = 0x3D)
    (hletter : ¬ (0x41 ≤ c.toNat ∧ c.toNat ≤ 0x5A)) : isSkipCode c = true := by
  simp only [isSkipCode, isAlphabetCode, Bool.and_eq_true, bne_iff_ne, Bool.not_eq_true', Bool.or_eq_false_iff,
    Bool.and_eq_false_iff, decide_eq_false_iff_not]
  bv_omega

/-- A code is `=`, a symbol's or one of the CHAR.SKIP row. -/
theorem charCode_cases (c : CharCode) : c = padChar ∨ (∃ v, c = symbolCode v) ∨ isSkipCode c = true := by
  by_cases hdigit : 0x32 ≤ c.toNat ∧ c.toNat ≤ 0x37
  · obtain ⟨v, hc, -⟩ := exists_symbolCode_of_digit hdigit
    exact .inr (.inl ⟨v, hc⟩)
  by_cases hpad : c.toNat = 0x3D
  · exact .inl (eq_padChar_of_toNat hpad)
  by_cases hletter : 0x41 ≤ c.toNat ∧ c.toNat ≤ 0x5A
  · obtain ⟨v, hc, -⟩ := exists_symbolCode_of_letter hletter
    exact .inr (.inl ⟨v, hc⟩)
  · exact .inr (.inr (isSkipCode_of_toNat hdigit hpad hletter))

/-! ## Their entries -/

/-- The entry of `=` (R77). -/
theorem romRead_padChar : romRead padChar = entryPad := if_pos rfl

/-- The entry of a symbol's code (R74). -/
theorem romRead_symbolCode (v : Sym) : romRead (symbolCode v) = entryHit v := romRead_alphabet v

/-- The entry of a code of the CHAR.SKIP row (R78). -/
theorem romRead_of_isSkipCode {c : CharCode} (h : isSkipCode c = true) : romRead c = entryInvalid :=
  (classOf_skip_iff c).mp (classOf_skip c h)

/-- The value of a hit. -/
theorem entryVal_entryHit : ∀ v : Sym, entryVal (entryHit v) = v := by decide

/-- A hit has its HIT bit. -/
theorem entryIsHit_entryHit : ∀ v : Sym, entryIsHit (entryHit v) = true := by decide

/-- The entry of a hit as a number. -/
theorem entryHit_eq_ofNat : ∀ v : Sym, entryHit v = BitVec.ofNat 7 (0x20 + v.toNat) := by decide

/-- The hit of a value is the entry of that symbol's code only. -/
theorem eq_symbolCode_of_romRead {c : CharCode} {v : Sym} (h : romRead c = entryHit v) : c = symbolCode v := by
  have hhit := entryIsHit_entryHit v
  rcases charCode_cases c with rfl | ⟨u, rfl⟩ | hskip
  · rw [← h, romRead_padChar] at hhit
    exact absurd hhit (by decide)
  · rw [romRead_symbolCode] at h
    rw [← entryVal_entryHit u, h, entryVal_entryHit]
  · rw [← h, romRead_of_isSkipCode hskip] at hhit
    exact absurd hhit (by decide)

/-- Only `=` has an entry with the PADF bit. -/
theorem eq_padChar_of_entryPadf {c : CharCode} (h : entryPadf (romRead c) = true) : c = padChar := by
  rcases charCode_cases c with hpad | ⟨v, rfl⟩ | hskip
  · exact hpad
  · rw [romRead_symbolCode, entryPadf_entryHit] at h
    exact absurd h Bool.false_ne_true
  · rw [romRead_of_isSkipCode hskip] at h
    exact absurd h (by decide)

/-- Only the codes of the CHAR.SKIP row have the invalid entry. -/
theorem isSkipCode_of_romRead {c : CharCode} (h : romRead c = entryInvalid) : isSkipCode c = true := by
  rcases charCode_cases c with rfl | ⟨v, rfl⟩ | hskip
  · exact absurd (romRead_padChar.symm.trans h) (by decide)
  · have hhit := entryIsHit_entryHit v
    rw [← romRead_symbolCode, h] at hhit
    exact absurd hhit (by decide)
  · exact hskip

/-! ## The table -/

/-- Settles O14, by the rows of the table: the digits, `=`, the letters and the codes left. -/
theorem romHasTheTabledEntries : Obligations.RomHasTheTabledEntries := by
  intro c
  split_ifs with hdigit hpad hletter
  · obtain ⟨v, rfl, hv⟩ := exists_symbolCode_of_digit hdigit
    rw [romRead_symbolCode, entryHit_eq_ofNat, hv, ← Nat.add_assoc]
  · obtain rfl := eq_padChar_of_toNat hpad
    exact romRead_padChar
  · obtain ⟨v, rfl, hv⟩ := exists_symbolCode_of_letter hletter
    rw [romRead_symbolCode, entryHit_eq_ofNat, hv]
  · exact romRead_of_isSkipCode (isSkipCode_of_toNat hdigit hpad hletter)

/-- Settles O15: the one code of a value is that symbol's. -/
theorem romIsABijectionOnTheAlphabet : Obligations.RomIsABijectionOnTheAlphabet := by
  refine ⟨fun v => ⟨symbolCode v, romRead_symbolCode v, fun _ => eq_symbolCode_of_romRead⟩,
    fun c => ⟨eq_padChar_of_entryPadf, ?_⟩⟩
  rintro rfl
  exact congrArg entryPadf romRead_padChar

/-- The codes that are not of the CHAR.SKIP row: the 6 digits, `=` and the 26 letters. -/
theorem codes_not_skip :
    ((List.range 256).filter fun n => !isSkipCode (BitVec.ofNat 8 n)) =
      List.range' 0x32 6 ++ 0x3D :: List.range' 0x41 26 := by
  decide

/-- Settles O17: of the 256 codes, all but 26 + 6 + 1 are in the row (R78). -/
theorem skipRowHasTheInvalidCodes : Obligations.SkipRowHasTheInvalidCodes := by
  refine ⟨fun c => ⟨romRead_of_isSkipCode, isSkipCode_of_romRead⟩, ?_⟩
  have hsplit := (List.range 256).length_eq_length_filter_add fun n => isSkipCode (BitVec.ofNat 8 n)
  rw [codes_not_skip] at hsplit
  simp only [List.length_range, List.length_append, List.length_cons, List.length_range'] at hsplit
  omega

end Sys2Proof.Machine
end

section
/-! PROOFS. The CHAR command (41_char.md R84–R92): each branch of the pseudocode is one of the events of R32, with the class
of the character read off the flags of its ROM entry. -/

namespace Sys2Proof.Machine

open Sys2Proof

/-! ## The class of a character, by the flags of its entry (R65, R67) -/

/-- PADF is looked at first. -/
theorem classOf_of_padf {c : CharCode} (hpad : entryPadf (romRead c) = true) : classOf c = .pad := if_pos hpad

/-- With neither flag the character is invalid. -/
theorem classOf_of_not_hit {c : CharCode} (hpad : ¬ entryPadf (romRead c) = true)
    (hhit : entryIsHit (romRead c) = false) : classOf c = .skip :=
  (if_neg hpad).trans (if_neg (Bool.eq_false_iff.mp hhit))

/-- With HIT alone the character has the value that its entry holds. -/
theorem classOf_of_hit {c : CharCode} (hpad : ¬ entryPadf (romRead c) = true)
    (hhit : ¬ entryIsHit (romRead c) = false) : classOf c = .accept (entryVal (romRead c)) :=
  (if_neg hpad).trans (if_pos (Bool.eq_true_of_not_eq_false hhit))

/-! ## The branches -/

/-- Settles O20, by the CHAR command's test of PHASE. -/
theorem stoppedCharIsDiscarded : Obligations.StoppedCharIsDiscarded := by
  intro i c s hi hp
  rw [exec_char i c s hi]
  exact charCmd_stopped c s hp

/-- Settles O21, by the event of a padding character. -/
theorem padStopsTheDecode : Obligations.PadStopsTheDecode := by
  intro r s hp
  exact exec_of_event (.padded _ rfl classOf_pad hp)

/-- Settles O22, by the event of an invalid character in a lenient decode. -/
theorem lenientSkipWritesNothing : Obligations.LenientSkipWritesNothing := by
  intro r c s hrom hp hs
  exact exec_of_event (.skipped c rfl ((classOf_skip_iff c).mpr hrom) hp hs)

/-- Settles O23, by the event of an invalid character in a strict decode; CHAR.PAD does not look at STRICT. -/
theorem strictSkipStopsWithInvalid : Obligations.StrictSkipStopsWithInvalid := by
  intro r c s hp hs
  exact ⟨fun hrom => exec_of_event (.rejected c rfl ((classOf_skip_iff c).mpr hrom) hp hs), padStopsTheDecode r s hp⟩

/-- Settles O24, by the event of a symbol that completes no byte; CNT + 5 is the same sum in 4 bits. -/
theorem acceptShiftsItsValueIn : Obligations.AcceptShiftsItsValueIn := by
  intro i v s hv hp hn
  obtain ⟨c, hi, hc⟩ := charCode_of_acceptVal i v hv
  have hcount : s.cnt + 5#4 = BitVec.ofNat 4 (heldAfter s.cnt) := by
    rw [heldAfter, BitVec.ofNat_add, BitVec.ofNat_toNat, BitVec.setWidth_eq]
  rw [hcount]
  exact exec_of_event (.absorbed c v hi hc hp (by omega))

/-- Settles O25, by the event of an emission. -/
theorem acceptEmitsTheTopByte : Obligations.AcceptEmitsTheTopByte := by
  rintro i v t s hv hp hcnt hn hcap rfl
  obtain ⟨c, hi, hc⟩ := charCode_of_acceptVal i v hv
  exact exec_of_event (.emitted c v hi hc hp (by omega) hcnt hcap)

/-- Settles O26: the event is an overflow if a byte is completed with NOUT = CAP, and otherwise an emission or a shift-in,
neither of which writes PHASE or REASON. -/
theorem acceptOverflowsOnlyWhenFull : Obligations.AcceptOverflowsOnlyWhenFull := by
  intro i v s hv hp hcnt
  obtain ⟨c, hi, hc⟩ := charCode_of_acceptVal i v hv
  split_ifs with hfull
  · obtain ⟨hn, hcap⟩ := hfull
    exact exec_of_event (.overflowed c v hi hc hp (by omega) hcnt hcap)
  · by_cases hn : 8 ≤ s.cnt.toNat + 5
    · have hcap : s.nout ≠ s.cap := fun h => hfull ⟨hn, h⟩
      exact ⟨_, exec_of_event (.emitted c v hi hc hp (by omega) hcnt hcap), hp, rfl⟩
    · exact ⟨_, exec_of_event (.absorbed c v hi hc hp (by omega)), hp, rfl⟩

/-- Settles O19: down the branches of R85, each is one event. -/
theorem charFollowsThePseudocode : Obligations.CharFollowsThePseudocode := by
  rintro i c e t s hi hcnt rfl rfl
  split_ifs with hstopped hpad hmiss hstrict hn hcap
  · exact stoppedCharIsDiscarded i c s hi hstopped
  all_goals have hp : s.phase = true := Bool.eq_true_of_not_eq_false hstopped
  · exact exec_of_event (.padded c hi (classOf_of_padf hpad) hp)
  · exact exec_of_event (.rejected c hi (classOf_of_not_hit hpad hmiss) hp hstrict)
  · exact exec_of_event (.skipped c hi (classOf_of_not_hit hpad hmiss) hp (Bool.eq_false_iff.mpr hstrict))
  · exact exec_of_event (.overflowed c _ hi (classOf_of_hit hpad hmiss) hp (by omega) hcnt hcap)
  · exact exec_of_event (.emitted c _ hi (classOf_of_hit hpad hmiss) hp (by omega) hcnt hcap)
  · exact exec_of_event (.absorbed c _ hi (classOf_of_hit hpad hmiss) hp (by omega))

end Sys2Proof.Machine
end

section
/-! PROOFS. START, END and the reserved opcode (42_control.md R99–R106), and the idle edge (R107): one, a row of them, and
idle edges anywhere among a run's inputs. -/

namespace Sys2Proof.Machine

open Sys2Proof

/-! ## The control commands -/

/-- Settles O30, by the event of a START, which has no condition on the state. -/
theorem startBeginsAFreshDecode : Obligations.StartBeginsAFreshDecode := by
  intro strict capv s
  exact exec_of_event (.started strict capv rfl)

/-- Settles O31, by the event of an END in ACTIVE. -/
theorem endStopsTheDecode : Obligations.EndStopsTheDecode := by
  intro r s hp
  exact exec_of_event (.ended r rfl hp)

/-- Settles O32: END is no START, so STOPPED discards it. -/
theorem stoppedEndIsDiscarded : Obligations.StoppedEndIsDiscarded := by
  intro r s hp
  exact exec_stopped (.endInput r) s nofun hp

/-- Settles O33, by the event of the reserved opcode, which has no condition on the state. -/
theorem reservedOpcodeIsANop : Obligations.ReservedOpcodeIsANop := by
  intro x s
  exact exec_of_event (.reservedOp x rfl)

/-! ## Idle edges in a row -/

/-- The step whose inputs begin with an idle edge. -/
theorem step_idle {s : State} {e : EdgeInput} {rest : List EdgeInput} (hin : s.inputs = e :: rest)
    (he : e.rst = false ∧ e.cmdValid = false) : step s = .next (clearValid { s with inputs := rest }) :=
  (step_cons s e rest hin).trans (edge_idle e _ he.1 he.2)

/-- The host's run of the machine, when its first step goes on. -/
theorem core_run_succ (k : Nat) {s t : State} (h : step s = .next t) :
    Host.Core.run core (k + 1) s = Host.Core.run core k t := by
  have hstep : core.step s = .next t := h
  simp only [Host.Core.run, hstep]

/-- Where OVALID is 0 already, a row of idle edges, also an empty one, takes itself off the inputs and does nothing else. -/
theorem core_run_idles (idles rest : List EdgeInput) (s : State) (hin : s.inputs = idles ++ rest)
    (hov : s.ovalid = false) (hidle : ∀ e ∈ idles, e.rst = false ∧ e.cmdValid = false) :
    Host.Core.run core idles.length s = .next { s with ovalid := false, inputs := rest } := by
  induction idles generalizing s with
  | nil =>
    rw [← hov, ← List.nil_append rest, ← hin]
    rfl
  | cons e idles ih =>
    obtain ⟨he, hidles⟩ := List.forall_mem_cons.mp hidle
    exact (core_run_succ idles.length (step_idle hin he)).trans (ih _ rfl rfl hidles)

/-- Settles O3: the first idle edge clears OVALID, and the others find it cleared. -/
theorem idleEdgesWriteOnlyValid : Obligations.IdleEdgesWriteOnlyValid := by
  refine ⟨fun s e rest hin hr hv => step_idle hin ⟨hr, hv⟩, ?_⟩
  intro idles rest s hin hne hidle
  cases idles with
  | nil => exact absurd rfl hne
  | cons e idles =>
    obtain ⟨he, hidles⟩ := List.forall_mem_cons.mp hidle
    exact (core_run_succ idles.length (step_idle hin he)).trans (core_run_idles idles rest _ rfl rfl hidles)

/-! ## OVALID before an edge is not read (10_state.md R29) -/

/-- No command reads OVALID: in every branch its meaning goes on from `clearValid` of the state (log entry 13). -/
theorem exec_clearValid (i : Instr) (s : State) : exec i (clearValid s) = exec i s := by
  cases i <;> rfl

/-- An edge of any kind does not see OVALID. -/
theorem step_clearValid (s : State) : step (clearValid s) = step s := by
  have hsample : sampleInputs (clearValid s) = ((sampleInputs s).1, clearValid (sampleInputs s).2) := by
    rcases s with ⟨_, _ | _⟩ <;> rfl
  rw [step, nextEdge, hsample, step, nextEdge]
  cases hr : (sampleInputs s).1.rst
  · cases hv : (sampleInputs s).1.cmdValid
    · rw [edge_idle _ _ hr hv, edge_idle _ _ hr hv]
      rfl
    · rw [edge_command _ _ hr hv, edge_command _ _ hr hv, exec_clearValid]
  · rw [edge_reset _ _ hr, edge_reset _ _ hr]
    rfl

/-- A run's observation has the bytes its own edges present, not one presented before it. -/
theorem observeRun_clearValid (k : Nat) (s : State) : observeRun k (clearValid s) = observeRun k s := by
  cases k with
  | zero => rfl
  | succ k => rw [observeRun, observeRun, step_clearValid]

/-! ## Idle edges among a run's inputs -/

/-- With CNT in its range, every run has an observation. -/
theorem observeRun_next_of_cnt_le (k : Nat) (s : State) (hcnt : s.cnt.toNat ≤ 7) : ∃ o, observeRun k s = .next o := by
  obtain ⟨o, ho, -⟩ := staleBitsReachNoObservation k s s hcnt ⟨rfl, rfl⟩
  exact ⟨o, ho⟩

/-- Idle edges before a run's inputs add nothing to its observation. -/
theorem observeRun_idles_append (idles after : List EdgeInput) (k : Nat) (s : State) (o : Observation)
    (hidle : ∀ e ∈ idles, e.rst = false ∧ e.cmdValid = false)
    (ho : observeRun k { s with inputs := after } = .next o) :
    observeRun (idles.length + k) { s with inputs := idles ++ after } = .next o := by
  induction idles with
  | nil => rwa [List.length_nil, Nat.zero_add]
  | cons e idles ih =>
    obtain ⟨he, hidles⟩ := List.forall_mem_cons.mp hidle
    have hrest := (observeRun_clearValid _ _).trans (ih hidles)
    rw [List.length_cons, Nat.add_right_comm]
    exact observeRun_succ _ _ _ o (step_idle rfl he) hrest

/-- An edge does the same before other inputs still to come. -/
theorem step_cons_with_inputs {s t : State} {e : EdgeInput} {rest : List EdgeInput}
    (h : step { s with inputs := e :: rest } = .next t) (rest' : List EdgeInput) :
    step { s with inputs := e :: rest' } = .next { t with inputs := rest' } := by
  rw [step_cons _ e rest rfl] at h
  rw [step_cons _ e rest' rfl]
  exact edgeDependsOnRegistersAndSampledInputs e { s with inputs := rest } t rest' h

/-- The same edges before two runs that have the same observation from every state with CNT in its range make two such runs
again. -/
theorem observeRun_append_congr {k k' : Nat} {l l' : List EdgeInput}
    (h : ∀ s : State, s.cnt.toNat ≤ 7 →
      ∃ o, observeRun k { s with inputs := l } = .next o ∧ observeRun k' { s with inputs := l' } = .next o)
    (before : List EdgeInput) (s : State) (hcnt : s.cnt.toNat ≤ 7) :
    ∃ o, observeRun (before.length + k) { s with inputs := before ++ l } = .next o ∧
      observeRun (before.length + k') { s with inputs := before ++ l' } = .next o := by
  induction before generalizing s with
  | nil => simpa using h s hcnt
  | cons e before ih =>
    obtain ⟨t, ht, htcnt⟩ := step_next_of_cnt_le { s with inputs := e :: (before ++ l) } hcnt
    obtain ⟨o, ho, ho'⟩ := ih t htcnt
    have hstep := step_cons_with_inputs ht (before ++ l)
    have hstep' := step_cons_with_inputs ht (before ++ l')
    rw [List.length_cons, Nat.add_right_comm _ 1 k, Nat.add_right_comm _ 1 k']
    exact ⟨_, observeRun_succ _ _ _ o hstep ho, observeRun_succ _ _ { t with inputs := before ++ l' } o hstep' ho'⟩

/-- Settles O57: the run over the later inputs has an observation, to which the idle edges before it add nothing, and the
same edges go before both. -/
theorem idleEdgesDoNotChangeTheObservation : Obligations.IdleEdgesDoNotChangeTheObservation := by
  intro before idles after s hinv hidle
  rw [Nat.add_assoc]
  refine observeRun_append_congr (fun u hu => ?_) before s hinv.cnt_le
  obtain ⟨o, ho⟩ := observeRun_next_of_cnt_le after.length { u with inputs := after } hu
  exact ⟨o, ho, observeRun_idles_append idles after after.length u o hidle ho⟩

end Sys2Proof.Machine
end

section
/-! PROOFS. The events that stop a decode (60_exceptions.md R111): the row of a CHAR command by the class of its character,
and then the stops among the events of R32. -/

namespace Sys2Proof.Machine

open Sys2Proof

/-! ## The row of a CHAR command (30_encoding.md R68) -/

/-- A CHAR command is in the padding row, in the row of the invalid characters, or in a row with a symbol value. -/
theorem charRow_cases {i : Instr} {c : CharCode} (hi : i.charCode = some c) :
    (∃ r, i = .charPad r) ∨ (∃ r, i = .charSkip r c) ∨ ∃ v, i.acceptVal = some v := by
  cases i
  case charPad r => exact .inl ⟨r, rfl⟩
  case charSkip r c' =>
    cases hi
    exact .inr (.inl ⟨r, rfl⟩)
  case start | endInput | rsvd => cases hi
  all_goals exact .inr (.inr ⟨_, rfl⟩)

/-- A row with a symbol value has a code of no other class. -/
theorem classOf_of_acceptVal {i : Instr} {c : CharCode} {v : Sym} (hi : i.charCode = some c)
    (hv : i.acceptVal = some v) : classOf c = .accept v := by
  obtain ⟨c', hi', hc'⟩ := charCode_of_acceptVal i v hv
  cases hi.symm.trans hi'
  exact hc'

/-- A well-formed CHAR whose character is padding is CHAR.PAD. -/
theorem eq_charPad_of_class {i : Instr} {c : CharCode} (hwf : i.wellFormed = true) (hi : i.charCode = some c)
    (hc : classOf c = .pad) : ∃ r, i = .charPad r := by
  rcases charRow_cases hi with hpad | ⟨r, rfl⟩ | ⟨v, hv⟩
  · exact hpad
  · cases hc.symm.trans (classOf_skip c hwf)
  · cases hc.symm.trans (classOf_of_acceptVal hi hv)

/-- A CHAR whose character is invalid is CHAR.SKIP on it. -/
theorem eq_charSkip_of_class {i : Instr} {c : CharCode} (hi : i.charCode = some c) (hc : classOf c = .skip) :
    ∃ r, i = .charSkip r c := by
  rcases charRow_cases hi with ⟨r, rfl⟩ | hskip | ⟨v, hv⟩
  · cases hi
    cases hc.symm.trans classOf_pad
  · exact hskip
  · cases hc.symm.trans (classOf_of_acceptVal hi hv)

/-! ## The stops -/

/-- The four events of R111, each with the reason it stops a decode in state s for. -/
inductive Stops (i : Instr) (s : State) : StopReason → Prop
  | pad (r : BitVec 9) (hi : i = .charPad r) : Stops i s .pad
  | endOfInput (r : BitVec 17) (hi : i = .endInput r) : Stops i s .endOfInput
  | overflow (v : Sym) (hv : i.acceptVal = some v) (hn : 3 ≤ s.cnt.toNat) (hf : s.nout = s.cap) : Stops i s .overflow
  | invalid (r : BitVec 9) (c : CharCode) (hi : i = .charSkip r c) (hs : s.strict = true) : Stops i s .invalid

/-- An event that takes an ACTIVE decode to STOPPED is `stop` for one of the four reasons; every other event keeps PHASE or
begins a decode. -/
theorem Event.eq_stop {i : Instr} {s t : State} (h : Event i s t) (hwf : i.wellFormed = true) (hactive : s.phase = true)
    (hstopped : t.phase = false) : ∃ why, Stops i s why ∧ t = stop why (clearValid s) := by
  cases h with
  | padded c hi hc =>
    obtain ⟨r, hr⟩ := eq_charPad_of_class hwf hi hc
    exact ⟨_, .pad r hr, rfl⟩
  | ended r hi => exact ⟨_, .endOfInput r hi, rfl⟩
  | overflowed c v hi hc _ hn _ hf => exact ⟨_, .overflow v (acceptVal_of_class i c v hwf hi hc) hn hf, rfl⟩
  | rejected c hi hc _ hs =>
    obtain ⟨r, hr⟩ := eq_charSkip_of_class hi hc
    exact ⟨_, .invalid r c hr hs, rfl⟩
  | _ => simp [hactive] at hstopped

/-- Settles O40: a decode's end is `stop` for one of the four reasons, which writes PHASE and REASON only; in STOPPED a
command other than START is discarded. -/
theorem fourEventsStopADecode : Obligations.FourEventsStopADecode := by
  intro i s t hwf h
  constructor
  · intro hactive hstopped
    obtain ⟨why, hwhy, rfl⟩ := (exec_event i s t h).eq_stop hwf hactive hstopped
    refine ⟨rfl, ?_⟩
    cases hwhy with
    | pad r hi => exact .inl ⟨r, hi, rfl⟩
    | endOfInput r hi => exact .inr (.inl ⟨r, hi, rfl⟩)
    | overflow v hv hn hf => exact .inr (.inr (.inl ⟨v, hv, hn, hf, rfl⟩))
    | invalid r c hi hs => exact .inr (.inr (.inr ⟨r, c, hi, hs, rfl⟩))
  · intro hstopped hi
    cases h.symm.trans (exec_stopped i s hi hstopped)
    exact ⟨hstopped, rfl⟩

end Sys2Proof.Machine
end

section
/-! PROOFS. The reset edge (70_reset_and_hazards.md R128, R129). -/

namespace Sys2Proof.Machine

open Sys2Proof

/-- `ResetState()` writes every register: what is left of a state is the host's inputs still to come. -/
theorem resetState_eq (s : State) : resetState s = { State.reset with inputs := s.inputs } := rfl

/-- Settles O2: an edge with `rst = 1` is `ResetState()`, whatever the rest of the edge says, and that writes every
register. -/
theorem resetEdgeGivesResetValues : Obligations.ResetEdgeGivesResetValues := by
  intro s e rest hinputs hrst
  calc step s = edge e { s with inputs := rest } := step_cons s e rest hinputs
    _ = .next (resetState { s with inputs := rest }) := edge_reset e _ hrst
    _ = .next { State.reset with inputs := rest } := by rw [resetState_eq]

end Sys2Proof.Machine
end

section
/-! PROOFS. Encoding against decoding (30_encoding.md R57–R62, R68): the fields of an encoded word, the two ways round, and
the words of the assembler lines (R70). -/

namespace Sys2Proof.Machine

open Sys2Proof

/-! ## The fields of an encoded word -/

/-- The opcode of a word of an opcode and 17 more bits. -/
theorem cmdOp_opWord (op : BitVec 2) (x : BitVec 17) : cmdOp (op ++ x : CmdWord) = op :=
  BitVec.extractLsb'_append_eq_left

/-- The low 17 bits of a word of an opcode and 17 more bits. -/
theorem cmdLow17_opWord (op : BitVec 2) (x : BitVec 17) : cmdLow17 (op ++ x : CmdWord) = x :=
  BitVec.extractLsb'_append_eq_right

/-- The three parts of a CHAR word or a START word, grouped as an opcode and 17 more bits. -/
theorem opWord_append {m n : Nat} (op : BitVec 2) (x : BitVec m) (y : BitVec n) :
    (op ++ x ++ y).toNat = (op ++ (x ++ y)).toNat := by
  rw [BitVec.append_assoc, BitVec.toNat_cast]

/-- A CHAR word as an opcode and 17 more bits. -/
theorem charWord_eq_opWord (r : BitVec 9) (c : CharCode) : charWord r c = 0b00#2 ++ (r ++ c) :=
  BitVec.eq_of_toNat_eq (opWord_append _ r c)

/-- The opcode of a CHAR word. -/
theorem cmdOp_charWord (r : BitVec 9) (c : CharCode) : cmdOp (charWord r c) = 0b00#2 := by
  rw [charWord_eq_opWord, cmdOp_opWord]

/-- A START word as an opcode and 17 more bits. -/
theorem encode_start_eq_opWord (s : Bool) (capv : Cap) :
    encode (.start s capv) = 0b10#2 ++ (BitVec.ofBool s ++ capv) :=
  BitVec.eq_of_toNat_eq (opWord_append _ (BitVec.ofBool s) capv)

/-- A word of an opcode and 17 more bits as the OR that the table of R70 writes. -/
theorem opWord_eq_or (op : BitVec 2) (x : BitVec 17) :
    (op ++ x : CmdWord) = op.setWidth 19 <<< 17 ||| x.setWidth 19 :=
  (BitVec.setWidth_eq _).symm.trans BitVec.setWidth_append_eq_shiftLeft_setWidth_or

/-! ## Decoding an encoded word -/

/-- A CHAR word decodes by its code, and hands its reserved bits on. -/
theorem decode_charWord (r : BitVec 9) (c : CharCode) : decode (charWord r c) = decodeChar r c := by
  have hr : cmdCharRsv (charWord r c) = r := by
    rw [charWord_eq_opWord, cmdCharRsv, BitVec.extractLsb'_append_eq_of_add_le (by decide)]
    exact BitVec.extractLsb'_append_eq_left
  rw [decode_of_op_char (cmdOp_charWord r c), hr, show cmdC (charWord r c) = c from BitVec.extractLsb'_append_eq_right]

/-- A START word decodes to the START of its fields. -/
theorem decode_encode_start (s : Bool) (capv : Cap) : decode (encode (.start s capv)) = .start s capv := by
  have hop : cmdOp (encode (.start s capv)) = 0b10#2 := by rw [encode_start_eq_opWord, cmdOp_opWord]
  have hs : cmdS (encode (.start s capv)) = s := by
    rw [cmdS, getLsbD_startWord]
    rfl
  rw [decode_of_op_start hop, hs, show cmdCapv (encode (.start s capv)) = capv from BitVec.extractLsb'_append_eq_right]

/-- A code of the CHAR.SKIP row passes every earlier test of the chain of R68. -/
theorem decodeChar_of_isSkipCode (r : BitVec 9) {c : CharCode} (h : isSkipCode c = true) :
    decodeChar r c = .charSkip r c := by
  unfold decodeChar
  repeat
    refine iteInduction (motive := (· = Instr.charSkip r c)) (fun hc => absurd h (by rw [hc]; decide)) (fun _ => ?_)
  rfl

/-- Settles O10, by the rows: CHAR.SKIP's code passes the chain, every other CHAR row's code is a literal that the chain
stops at, and the control words are read by their opcode. -/
theorem decodeOfEncodeIsIdentity : Obligations.DecodeOfEncodeIsIdentity := by
  intro i hwf
  cases i
  case start s capv => exact decode_encode_start s capv
  case endInput r => exact (decode_of_op_end (cmdOp_opWord _ r)).trans (congrArg _ (cmdLow17_opWord _ r))
  case rsvd x => exact (decode_of_op_rsvd (cmdOp_opWord _ x)).trans (congrArg _ (cmdLow17_opWord _ x))
  case charSkip r c => exact (decode_charWord r c).trans (decodeChar_of_isSkipCode r hwf)
  all_goals exact (decode_charWord _ _).trans rfl

/-! ## Encoding a decoded word -/

/-- The row that a CHAR word decodes to encodes the same reserved bits and code. -/
theorem encode_decodeChar (r : BitVec 9) (c : CharCode) : encode (decodeChar r c) = charWord r c := by
  unfold decodeChar
  repeat
    refine iteInduction (motive := fun i => encode i = charWord r c) (fun hc => congrArg (charWord r) hc.symm)
      (fun _ => ?_)
  rfl

/-- The fields of a START word are its low 17 bits. -/
theorem ofBool_cmdS_append_cmdCapv (w : CmdWord) : BitVec.ofBool (cmdS w) ++ cmdCapv w = cmdLow17 w := by
  have hbit : BitVec.ofBool (cmdS w) = w.extractLsb' 16 1 := by
    apply BitVec.eq_of_getLsbD_eq
    intro i hi
    obtain rfl : i = 0 := by omega
    simp [cmdS]
  rw [hbit]
  exact BitVec.extractLsb'_append_extractLsb'_eq_extractLsb' rfl

/-- Settles O11, by the opcode: the fields that each kind of word is taken apart into make the word up again. -/
theorem encodeOfDecodeIsIdentity : Obligations.EncodeOfDecodeIsIdentity := by
  intro w
  refine ⟨wellFormed_decode w, ?_⟩
  have hword := cmdOp_append_cmdLow17 w
  have hops : ∀ op : BitVec 2, op = 0b00#2 ∨ op = 0b01#2 ∨ op = 0b10#2 ∨ op = 0b11#2 := by decide
  rcases hops (cmdOp w) with hop | hop | hop | hop
  · rw [decode_of_op_char hop, encode_decodeChar, charWord_cmdCharRsv_cmdC hop]
  · rw [decode_of_op_end hop]
    rwa [hop] at hword
  · rw [decode_of_op_start hop, encode_start_eq_opWord, ofBool_cmdS_append_cmdCapv]
    rwa [hop] at hword
  · rw [decode_of_op_rsvd hop]
    rwa [hop] at hword

/-! ## Words written out -/

/-- Settles O7, by running the decoder on the eleven words. -/
theorem knownWordsDecode : Obligations.KnownWordsDecode := by
  unfold Obligations.KnownWordsDecode
  decide

/-- The word of a line START (R70) is the encoding of its command. -/
theorem word_start (cap : Cap) (strict : Bool) : (AsmLine.start cap strict).word = some (encode (.start strict cap)) := by
  have hor : encode (.start strict cap) =
      ((0b10#2).setWidth 19 <<< 17 ||| (BitVec.ofBool strict).setWidth 19 <<< 16 ||| cap.setWidth 19) :=
    (BitVec.setWidth_eq _).symm.trans BitVec.setWidth_append_append_eq_shiftLeft_setWidth_or
  rw [hor]
  cases strict <;> rfl

/-- The word of a line CHAR c (R70) is the CHAR word of c with its reserved bits 0. -/
theorem word_char (c : CharCode) : (AsmLine.char c).word = some (charWord 0#9 c) := by
  have hor : charWord 0#9 c = (0b00#2).setWidth 19 <<< 17 ||| (0#9).setWidth 19 <<< 8 ||| c.setWidth 19 :=
    (BitVec.setWidth_eq _).symm.trans BitVec.setWidth_append_append_eq_shiftLeft_setWidth_or
  rw [hor]
  rfl

/-- The word of a CHAR line given by its low 17 bits (log entry 20). -/
theorem word_charBits (x : BitVec 17) :
    (AsmLine.charBits x).word = some (charWord (x.extractLsb' 8 9) (x.extractLsb' 0 8)) := by
  have hlow : x.extractLsb' 8 9 ++ x.extractLsb' 0 8 = x :=
    (BitVec.extractLsb'_append_extractLsb'_eq_extractLsb' rfl).trans BitVec.extractLsb'_eq_self
  rw [charWord_eq_opWord, hlow, opWord_eq_or]
  rfl

/-- The word of a line RSVD x (R70) is the encoding of its command. -/
theorem word_rsvd (x : BitVec 17) : (AsmLine.rsvd x).word = some (encode (.rsvd x)) :=
  congrArg some (opWord_eq_or 0b11#2 x).symm

/-- Settles O13: each line's word is an encoding, and so decodes to its command. -/
theorem assemblerWordsDecode : Obligations.AssemblerWordsDecode := by
  refine ⟨fun cap strict => ?_, by decide, fun c => ?_, fun x => ?_, fun x => ?_⟩
  · rw [word_start]
    exact congrArg some (decode_encode_start strict cap)
  · rw [word_char, Option.map_some, decode_charWord]
    exact (isRowOf_decodeChar 0#9 c).1
  · rw [word_rsvd]
    exact congrArg some (decodeOfEncodeIsIdentity (.rsvd x) rfl)
  · rw [word_charBits]
    exact congrArg some (decode_charWord _ _)

/-! ## The alphabet's rows against the ROM -/

/-- A hit's class is its value. -/
theorem classOf_of_entryHit {c : CharCode} {v : Sym} (h : romRead c = entryHit v) : classOf c = .accept v := by
  have hpad : ¬ entryPadf (romRead c) = true := by rw [h, entryPadf_entryHit]; decide
  have hhit : ¬ entryIsHit (romRead c) = false := by rw [h, entryIsHit_entryHit]; decide
  rw [classOf_of_hit hpad hhit, h, entryVal_entryHit]

/-- Only a hit has a class with a value. -/
theorem romRead_of_classOf_accept {c : CharCode} {v : Sym} (h : classOf c = .accept v) : romRead c = entryHit v := by
  rcases charCode_cases c with rfl | ⟨u, rfl⟩ | hskip
  · cases h.symm.trans classOf_pad
  · cases h.symm.trans (classOf_of_entryHit (romRead_symbolCode u))
    exact romRead_symbolCode _
  · cases h.symm.trans (classOf_skip c hskip)

/-- Settles O18, by the class of the row's code. -/
theorem acceptRowsCarryTheRomValue : Obligations.AcceptRowsCarryTheRomValue := by
  constructor
  · intro i v hv
    obtain ⟨c, hi, hc⟩ := charCode_of_acceptVal i v hv
    exact ⟨c, hi, romRead_of_classOf_accept hc⟩
  · intro r c v hrom
    obtain ⟨hcode, hwf⟩ := isRowOf_decodeChar r c
    exact acceptVal_of_class _ c v hwf hcode (classOf_of_entryHit hrom)

end Sys2Proof.Machine
end

section
/-! PROOFS. What one command keeps (10_state.md R32): the frame of every command but START, and what STRICT is read for. -/

namespace Sys2Proof.Machine

open Sys2Proof

/-- A command without a symbol value that is no START leaves the decode's registers alone: only a shift-in writes them. -/
theorem Event.eq_of_no_symbol {i : Instr} {s t : State} (h : Event i s t) (hwf : i.wellFormed = true)
    (hi : ∀ b capv, i ≠ .start b capv) (hv : i.acceptVal = none) :
    t.acc = s.acc ∧ t.cnt = s.cnt ∧ t.nout = s.nout ∧ t.obyte = s.obyte ∧ t.ovalid = false := by
  cases h with
  | started b capv hs => exact absurd hs (hi b capv)
  | absorbed c v hc hclass => cases hv.symm.trans (acceptVal_of_class i c v hwf hc hclass)
  | emitted c v hc hclass => cases hv.symm.trans (acceptVal_of_class i c v hwf hc hclass)
  | _ => exact ⟨rfl, rfl, rfl, rfl, rfl⟩

/-- REASON is written with PHASE only (60_exceptions.md R111): a stop, which takes PHASE to STOPPED, writes both. -/
theorem Event.reason_eq {i : Instr} {s t : State} (h : Event i s t) (hi : ∀ b capv, i ≠ .start b capv)
    (hphase : t.phase = s.phase) : t.reason = s.reason := by
  cases h with
  | started b capv hs => exact absurd hs (hi b capv)
  | ended _ _ hp | padded _ _ _ hp | rejected _ _ _ hp | overflowed _ _ _ _ hp => cases hphase.trans hp
  | _ => rfl

/-- Settles O34, by the events' frames. -/
theorem commandsKeepTheOtherRegisters : Obligations.CommandsKeepTheOtherRegisters := by
  intro i s t hwf hi h
  have he := exec_event i s t h
  obtain ⟨hcap, hstrict⟩ := he.cap_strict_eq hi
  exact ⟨hcap, hstrict, he.inputs_eq, he.eq_of_no_symbol hwf hi, he.reason_eq hi⟩

/-- Settles O38: of the events but START's, the emission alone writes NOUT or sets OVALID, and it does both. -/
theorem atMostOneBytePerCommand : Obligations.AtMostOneBytePerCommand := by
  intro i s t hi h
  cases exec_event i s t h with
  | started b capv hs => exact absurd hs (hi b capv)
  | emitted => exact .inl ⟨rfl, rfl⟩
  | _ => exact .inr ⟨rfl, rfl⟩

/-- STRICT is read for an invalid character only. -/
theorem Event.with_strict {i : Instr} {s t : State} (h : Event i s t) (hi : ∀ b capv, i ≠ .start b capv)
    (hskip : ∀ r c, i ≠ .charSkip r c) (b : Bool) : Event i { s with strict := b } { t with strict := b } := by
  cases h with
  | started b' capv hs => exact absurd hs (hi b' capv)
  | skipped c hc hclass | rejected c hc hclass =>
    obtain ⟨r, hr⟩ := eq_charSkip_of_class hc hclass
    exact absurd hr (hskip r c)
  | ended r hs hp => exact .ended r hs hp
  | reservedOp x hs => exact .reservedOp x hs
  | discarded hs hp => exact .discarded hs hp
  | padded c hc hclass hp => exact .padded c hc hclass hp
  | absorbed c v hc hclass hp hn => exact .absorbed c v hc hclass hp hn
  | emitted c v hc hclass hp hn hn' hr => exact .emitted c v hc hclass hp hn hn' hr
  | overflowed c v hc hclass hp hn hn' hf => exact .overflowed c v hc hclass hp hn hn' hf

/-- Settles O39, by `Event.with_strict`. -/
theorem strictModeMattersOnlyToInvalidCharacters : Obligations.StrictModeMattersOnlyToInvalidCharacters :=
  fun i s t b _ hi hskip h => exec_of_event ((exec_event i s t h).with_strict hi hskip b)

end Sys2Proof.Machine
end

section
/-! PROOFS. The kinds of edge (10_state.md R29): a command edge, an idle one, and the edges that begin a new decode or do
not (42_control.md R110). -/

namespace Sys2Proof.Machine

open Sys2Proof

/-- Settles O4, by `step_nil`. -/
theorem exhaustedInputsAreIdleEdges : Obligations.ExhaustedInputsAreIdleEdges := step_nil

/-- Settles O5: the edge is a command edge. -/
theorem stepRunsDecodedCommand : Obligations.StepRunsDecodedCommand :=
  fun s _ rest hin => (step_cons s _ rest hin).trans (edge_command _ _ rfl rfl)

/-- Settles O6: the placed command stands first on the list, so the step is O5's. -/
theorem placedCommandRunsNext : Obligations.PlacedCommandRunsNext :=
  fun s _ _ => ⟨_, rfl, stepRunsDecodedCommand (presentCommand _ s) _ s.inputs rfl⟩

/-- An edge that begins no decode is no reset, and its command is no START. -/
theorem restarts_eq_false_iff (e : EdgeInput) :
    e.restarts = false ↔ e.rst = false ∧ (e.cmdValid = true → cmdOp e.cmd ≠ 0b10#2) := by
  simp [EdgeInput.restarts]

/-- What a step did whose edge begins no decode: a command other than START, or an idle edge. -/
theorem step_continues {s t : State} (h : step s = .next t) (he : (sampleInputs s).1.restarts = false) :
    ((sampleInputs s).1.cmdValid = true ∧ (∀ b capv, decode (sampleInputs s).1.cmd ≠ .start b capv) ∧
      Event (decode (sampleInputs s).1.cmd) { s with inputs := s.inputs.tail } t) ∨
    ((sampleInputs s).1.cmdValid = false ∧ t = clearValid { s with inputs := s.inputs.tail }) := by
  obtain ⟨hrst, hop⟩ := (restarts_eq_false_iff _).mp he
  have hcases := step_cases s t h
  rw [sampleInputs_snd] at hcases
  rcases hcases with ⟨hr, -⟩ | ⟨-, hv, hevent⟩ | ⟨-, hv, rfl⟩
  · cases hrst.symm.trans hr
  · exact .inl ⟨hv, decode_ne_start (hop hv), hevent⟩
  · exact .inr ⟨hv, rfl⟩

/-- A step whose edge begins a decode or ends it by reset leaves nothing held, counted or presented. -/
theorem step_restarts {s t : State} (h : step s = .next t) (he : (sampleInputs s).1.restarts = true) :
    t.acc = 0#13 ∧ t.cnt = 0#4 ∧ t.nout = 0#16 ∧ t.ovalid = false := by
  rcases step_cases s t h with ⟨-, rfl⟩ | ⟨hr, hv, hevent⟩ | ⟨hr, hv, -⟩
  · exact ⟨rfl, rfl, rfl, rfl⟩
  · have hop : cmdOp (sampleInputs s).1.cmd = 0b10#2 := by simpa [EdgeInput.restarts, hr, hv] using he
    rw [decode_of_op_start hop] at hevent
    rw [hevent.eq_of_start]
    exact ⟨rfl, rfl, rfl, rfl⟩
  · simp [EdgeInput.restarts, hr, hv] at he

/-- In STOPPED an edge that begins no decode is idle, or has a command that is discarded. -/
theorem edge_stopped {e : EdgeInput} {s : State} (hp : s.phase = false) (he : e.restarts = false) :
    edge e s = .next (clearValid s) := by
  obtain ⟨hrst, hop⟩ := (restarts_eq_false_iff e).mp he
  cases hv : e.cmdValid
  · exact edge_idle e s hrst hv
  · exact (edge_command e s hrst hv).trans (exec_stopped _ s (decode_ne_start (hop hv)) hp)

/-- Settles O41, by `edge_stopped`. -/
theorem resultStaysUntilStartOrReset : Obligations.ResultStaysUntilStartOrReset :=
  fun s e rest hin hp he => (step_cons s e rest hin).trans (edge_stopped hp he)

/-! ## The edges that emit -/

/-- An event that sets OVALID is an emission. -/
theorem Event.of_ovalid {i : Instr} {s t : State} (h : Event i s t) (hv : t.ovalid = true) :
    s.phase = true ∧ s.nout ≠ s.cap ∧
      t.phase = s.phase ∧ t.reason = s.reason ∧ t.nout = s.nout + 1#16 ∧ t.cap = s.cap := by
  cases h with
  | emitted c v hi hc hp hn hn' hr => exact ⟨hp, hr, rfl, rfl, rfl, rfl⟩
  | _ => cases hv

/-- A step that sets OVALID does so by an emission: in ACTIVE, below the capacity, and with the byte counted. -/
theorem step_of_ovalid {s t : State} (h : step s = .next t) (hv : t.ovalid = true) :
    s.phase = true ∧ s.nout ≠ s.cap ∧
      t.phase = s.phase ∧ t.reason = s.reason ∧ t.nout = s.nout + 1#16 ∧ t.cap = s.cap := by
  rcases step_cases s t h with ⟨-, rfl⟩ | ⟨-, -, hevent⟩ | ⟨-, -, rfl⟩
  · cases hv
  · rw [sampleInputs_snd] at hevent
    exact hevent.of_ovalid hv
  · cases hv

/-- Settles O42, by `step_of_ovalid`. -/
theorem noEmissionAtAStop : Obligations.NoEmissionAtAStop := by
  intro s t h hv
  obtain ⟨hp, -, hphase, hreason, -, -⟩ := step_of_ovalid h hv
  exact ⟨hp, hphase.trans hp, hreason⟩

/-- NOUT below CAP, where it is at most CAP and not equal to it. -/
theorem Inv.nout_lt {s : State} (h : Inv s) (hne : s.nout ≠ s.cap) : s.nout.toNat < s.cap.toNat :=
  lt_of_le_of_ne h.nout_le fun heq => hne (BitVec.eq_of_toNat_eq heq)

/-- Settles O43: the step was an emission, which adds 1 to a NOUT below CAP. -/
theorem presentedIndexIsBelowCapacity : Obligations.PresentedIndexIsBelowCapacity := by
  intro s t k b hinv h hpres
  cases hv : t.ovalid with
  | false => simp [State.presented, hv] at hpres
  | true =>
    obtain ⟨-, hne, -, -, hnout, hcap⟩ := step_of_ovalid h hv
    have hlt := hinv.nout_lt hne
    simp only [State.presented, hv, if_true, Option.some.injEq, Prod.mk.injEq] at hpres
    obtain ⟨rfl, rfl⟩ := hpres
    rw [hnout, hcap, nout_succ_toNat _ _ hlt, Nat.add_sub_cancel]
    exact ⟨rfl, hlt, rfl⟩

/-- Settles O50: PHASE, REASON, NOUT, OVALID and OBYTE are equal in states that differ in ACC only. -/
theorem staleBitsReachNoOutput : Obligations.StaleBitsReachNoOutput := by
  intro s s' t _ hs h
  obtain ⟨t', ht', hst⟩ := step_sameButStale hs h
  exact ⟨t', ht', hst, by rw [← hst.rest]; rfl⟩

end Sys2Proof.Machine
end

section
/-! PROOFS. The invariants (41_char.md R94) and the further ones (`Consistent`): after reset, over every edge, and so over
every run that begins with a reset edge (10_state.md R36). -/

namespace Sys2Proof.Machine

open Sys2Proof

/-! ## The three invariants of R94 -/

/-- The invariants do not speak of the inputs still to come. -/
theorem Inv.with_inputs {s : State} (h : Inv s) (later : List EdgeInput) : Inv { s with inputs := later } :=
  ⟨h.cnt_le, h.nout_le, h.reason_active⟩

/-- No command takes NOUT above CAP: START clears it, and an emission counts up from below CAP. -/
theorem Event.nout_le {i : Instr} {s t : State} (h : Event i s t) (hinv : Inv s) : t.nout.toNat ≤ t.cap.toNat := by
  cases h with
  | started => exact Nat.zero_le _
  | emitted c v hi hc hp hn hn' hr =>
    have hlt := hinv.nout_lt hr
    exact (nout_succ_toNat _ _ hlt).trans_le hlt
  | _ => exact hinv.nout_le

/-- A command that ends in ACTIVE has not stopped the decode, and leaves NONE in REASON. -/
theorem Event.reason_active {i : Instr} {s t : State} (h : Event i s t) (hinv : Inv s) (hp : t.phase = true) :
    t.reason = reasonNone := by
  cases h with
  | started => rfl
  | ended | padded | rejected | overflowed => cases hp
  | _ => exact hinv.reason_active hp

/-- Every command keeps the invariants. -/
theorem Event.inv {i : Instr} {s t : State} (h : Event i s t) (hinv : Inv s) : Inv t :=
  ⟨h.cnt_le hinv.cnt_le, h.nout_le hinv, h.reason_active hinv⟩

/-- The state after a reset meets the invariants. -/
theorem inv_resetState (s : State) : Inv (resetState s) := ⟨Nat.zero_le 7, Nat.le_refl 0, nofun⟩

/-- Settles O46, by the kind of edge. -/
theorem everyEdgeKeepsTheInvariants : Obligations.EveryEdgeKeepsTheInvariants := by
  intro s t hinv h
  have hinv' : Inv (sampleInputs s).2 := by
    rw [sampleInputs_snd]
    exact hinv.with_inputs _
  rcases step_cases s t h with ⟨-, rfl⟩ | ⟨-, -, hevent⟩ | ⟨-, -, rfl⟩
  · exact inv_resetState _
  · exact hevent.inv hinv'
  · exact ⟨hinv'.cnt_le, hinv'.nout_le, hinv'.reason_active⟩

/-- Settles O48: CNT in its range is enough for a step to go on. -/
theorem noEdgeFaultsUnderTheInvariants : Obligations.NoEdgeFaultsUnderTheInvariants := by
  intro s hinv
  obtain ⟨t, ht, -⟩ := step_next_of_cnt_le s hinv.cnt_le
  exact ⟨t, ht⟩

/-- Settles O29: the model's fault is the first thing that an accepted symbol can do. -/
theorem unreachableCountFaults : Obligations.UnreachableCountFaults := by
  intro i v s hv hp hcnt
  obtain ⟨c, hi, hc⟩ := charCode_of_acceptVal i v hv
  rw [exec_char i c s hi, charCmd_accept c v s hp hc]
  exact if_pos hcnt

/-! ## The further invariants -/

/-- The further invariants do not speak of the inputs still to come. -/
theorem Consistent.with_inputs {s : State} (h : Consistent s) (later : List EdgeInput) :
    Consistent { s with inputs := later } where
  reason_le := h.reason_le
  stopped_none hp hr := congrArg (fun u : State => { u with inputs := later }) (h.stopped_none hp hr)
  overflow_full := h.overflow_full
  invalid_strict := h.invalid_strict
  bits_by_five := h.bits_by_five
  presented_counted := h.presented_counted

/-- The state after a reset meets the further invariants. -/
theorem consistent_resetState (s : State) : Consistent (resetState s) where
  reason_le := Nat.zero_le 4
  stopped_none _ _ := rfl
  overflow_full := nofun
  invalid_strict := nofun
  bits_by_five := rfl
  presented_counted := nofun

/-- An edge that writes OVALID only keeps them. -/
theorem Consistent.clearValid {s : State} (h : Consistent s) : Consistent (clearValid s) where
  reason_le := h.reason_le
  stopped_none hp hr := congrArg Machine.clearValid (h.stopped_none hp hr)
  overflow_full := h.overflow_full
  invalid_strict := h.invalid_strict
  bits_by_five := h.bits_by_five
  presented_counted := nofun

/-- The codes that a stop writes (60_exceptions.md R112). -/
theorem StopReason.code_toNat_le (r : StopReason) : r.code.toNat ≤ 4 := by cases r <;> decide

/-- No stop writes NONE. -/
theorem StopReason.code_ne_none (r : StopReason) : r.code ≠ reasonNone := by cases r <;> decide

/-- A stop keeps them if an OVERFLOW finds the buffer full and an INVALID the decode strict. -/
theorem Consistent.stop {s : State} (h : Consistent s) (r : StopReason)
    (hfull : r.code = StopReason.overflow.code → s.nout = s.cap)
    (hstrict : r.code = StopReason.invalid.code → s.strict = true) :
    Consistent (stop r (Machine.clearValid s)) where
  reason_le := r.code_toNat_le
  stopped_none _ hr := absurd hr r.code_ne_none
  overflow_full := hfull
  invalid_strict := hstrict
  bits_by_five := h.bits_by_five
  presented_counted := nofun

/-- An ACTIVE state with NONE in REASON meets them if its counts do. -/
theorem consistent_of_active {s : State} (hp : s.phase = true) (hr : s.reason = reasonNone)
    (hbits : (8 * s.nout.toNat + s.cnt.toNat) % 5 = 0) (hcounted : s.ovalid = true → 1 ≤ s.nout.toNat) :
    Consistent s where
  reason_le := by rw [hr]; decide
  stopped_none hp' := by cases hp.symm.trans hp'
  overflow_full hr' := by cases hr.symm.trans hr'
  invalid_strict hr' := by cases hr.symm.trans hr'
  bits_by_five := hbits
  presented_counted hv := ⟨hcounted hv, hp⟩

/-- Every command keeps the further invariants: five bits more are held, or eight of them counted as a byte. -/
theorem Event.consistent {i : Instr} {s t : State} (h : Event i s t) (hinv : Inv s) (hc : Consistent s) :
    Consistent t := by
  have hbits := hc.bits_by_five
  cases h with
  | started => exact consistent_of_active rfl rfl rfl nofun
  | ended => exact hc.stop .endOfInput nofun nofun
  | padded => exact hc.stop .pad nofun nofun
  | rejected c hi hclass hp hs => exact hc.stop .invalid nofun fun _ => hs
  | overflowed c v hi hclass hp hn hn' hf => exact hc.stop .overflow (fun _ => hf) nofun
  | reservedOp | discarded | skipped => exact hc.clearValid
  | absorbed c v hi hclass hp hn =>
    refine consistent_of_active hp (hinv.reason_active hp) ?_ nofun
    rw [hold_cnt, heldAfter, count_toNat _ (by omega), hold_nout, clearValid_nout]
    omega
  | emitted c v hi hclass hp hn hn' hr =>
    have hnout := nout_succ_toNat _ _ (hinv.nout_lt hr)
    refine consistent_of_active hp (hinv.reason_active hp) ?_ fun _ => ?_
    · rw [hold_cnt, heldAfter, count_toNat _ (by omega), hold_nout, emit_nout, clearValid_nout, hnout]
      omega
    · rw [hold_nout, emit_nout, clearValid_nout, hnout]
      exact Nat.le_add_left 1 _

/-- Settles O47, by the kind of edge. -/
theorem everyEdgeKeepsConsistency : Obligations.EveryEdgeKeepsConsistency := by
  intro s t hinv hc h
  have hcases := step_cases s t h
  rw [sampleInputs_snd] at hcases
  rcases hcases with ⟨-, rfl⟩ | ⟨-, -, hevent⟩ | ⟨-, -, rfl⟩
  · exact consistent_resetState _
  · exact hevent.consistent (hinv.with_inputs _) (hc.with_inputs _)
  · exact (hc.with_inputs _).clearValid

/-- Settles O45: the state after reset is `resetState` of itself. -/
theorem resetMeetsTheInvariants : Obligations.ResetMeetsTheInvariants :=
  fun inputs => ⟨inv_resetState { State.reset with inputs := inputs },
    consistent_resetState { State.reset with inputs := inputs }⟩

/-- Settles O44, by the codes that the further invariants leave to REASON. -/
theorem aStopIsASuccessOrAFailure : Obligations.AStopIsASuccessOrAFailure := by
  have hcodes : ∀ r : ReasonCode, r.toNat ≤ 4 → r ≠ 0#3 →
      (r == StopReason.pad.code || r == StopReason.endOfInput.code) =
        !(r == StopReason.overflow.code || r == StopReason.invalid.code) := by decide
  intro s hc hp hr
  simpa only [State.succeeded, State.failed, hp, Bool.not_false, Bool.true_and] using hcodes _ hc.reason_le hr

/-! ## Runs -/

/-- From a state with the invariants every run goes on, and keeps them. -/
theorem core_run_keeps_invariants (k : Nat) (s : State) (hinv : Inv s) (hc : Consistent s) :
    ∃ t, Host.Core.run core k s = .next t ∧ Inv t ∧ Consistent t := by
  induction k generalizing s with
  | zero => exact ⟨s, rfl, hinv, hc⟩
  | succ k ih =>
    obtain ⟨t, ht⟩ := noEdgeFaultsUnderTheInvariants s hinv
    obtain ⟨u, hu, hu'⟩ := ih t (everyEdgeKeepsTheInvariants s t hinv ht) (everyEdgeKeepsConsistency s t hinv hc ht)
    exact ⟨u, (core_run_succ k ht).trans hu, hu'⟩

/-- Settles O49: the reset edge brings the invariants about, and the run keeps them. -/
theorem everyRunAfterAResetEdgeGoesOn : Obligations.EveryRunAfterAResetEdgeGoesOn := by
  intro k s e rest hin hrst
  have hstep : step s = .next (resetState { s with inputs := rest }) :=
    (step_cons s e rest hin).trans (edge_reset e _ hrst)
  obtain ⟨t, ht, hkept⟩ := core_run_keeps_invariants k _ (inv_resetState _) (consistent_resetState _)
  exact ⟨t, (core_run_succ k hstep).trans ht, hkept⟩

end Sys2Proof.Machine
end

section
/-! PROOFS. An accepted symbol, by the bits held before it (41_char.md R89–R92, R97): five bits more are held, or eight of
them go out as a byte, or the buffer is full. -/

namespace Sys2Proof.Machine

open Sys2Proof

/-! ## The two states that an accepted symbol leaves -/

/-- The state after a symbol that completes no byte (R89). -/
def afterShift (v : Sym) (s : State) : State := hold (shiftIn s.acc v) (heldAfter s.cnt) (clearValid s)

/-- The state after a symbol that completes a byte there is room for (R90). -/
def afterByte (v : Sym) (s : State) : State :=
  hold (shiftIn s.acc v) (heldAfter s.cnt - 8) (emit (topByte (shiftIn s.acc v) (heldAfter s.cnt)) (clearValid s))

/-- Five bits more are held. -/
theorem afterShift_cnt (v : Sym) {s : State} (h : s.cnt.toNat ≤ 2) : (afterShift v s).cnt.toNat = s.cnt.toNat + 5 := by
  rw [afterShift, hold_cnt, heldAfter, count_toNat _ (by omega)]

/-- Five bits more were held, and eight of them have gone out. -/
theorem afterByte_cnt (v : Sym) {s : State} (h : s.cnt.toNat ≤ 7) : (afterByte v s).cnt.toNat = s.cnt.toNat + 5 - 8 := by
  rw [afterByte, hold_cnt, heldAfter, count_toNat _ (by omega)]

/-- The byte is counted in NOUT. -/
theorem afterByte_nout (v : Sym) {s : State} (h : s.nout.toNat < s.cap.toNat) :
    (afterByte v s).nout.toNat = s.nout.toNat + 1 :=
  nout_succ_toNat _ _ h

/-- A symbol that completes no byte presents none. -/
theorem afterShift_emitted (v : Sym) (s : State) : (afterShift v s).emitted = [] := rfl

/-- A symbol that completes a byte presents the top 8 of the held bits. -/
theorem afterByte_emitted (v : Sym) (s : State) :
    (afterByte v s).emitted = [topByte (shiftIn s.acc v) (heldAfter s.cnt)] := rfl

/-- All that a CHAR.ACCEPT can do in ACTIVE with CNT in its range. -/
theorem exec_accept_cases {i : Instr} {v : Sym} {s : State} (hv : i.acceptVal = some v) (hp : s.phase = true)
    (hcnt : s.cnt.toNat ≤ 7) :
    (s.cnt.toNat ≤ 2 ∧ exec i s = .next (afterShift v s)) ∨
    (3 ≤ s.cnt.toNat ∧ s.nout ≠ s.cap ∧ exec i s = .next (afterByte v s)) ∨
    (3 ≤ s.cnt.toNat ∧ s.nout = s.cap ∧ exec i s = .next (stop .overflow (clearValid s))) := by
  obtain ⟨c, hi, hc⟩ := charCode_of_acceptVal i v hv
  by_cases hn : 3 ≤ s.cnt.toNat
  · by_cases hf : s.nout = s.cap
    · exact .inr (.inr ⟨hn, hf, exec_of_event (.overflowed c v hi hc hp hn hcnt hf)⟩)
    · exact .inr (.inl ⟨hn, hf, exec_of_event (.emitted c v hi hc hp hn hcnt hf)⟩)
  · exact .inl ⟨by omega, exec_of_event (.absorbed c v hi hc hp (by omega))⟩

/-! ## The outcome table -/

/-- With 3 to 7 bits held and room, a CHAR.ACCEPT emits (R97). -/
theorem exec_accept_fills {i : Instr} {v : Sym} {s : State} (hv : i.acceptVal = some v) (hp : s.phase = true)
    (hcap : s.nout ≠ s.cap) (hn : 3 ≤ s.cnt.toNat) (hn' : s.cnt.toNat ≤ 7) : exec i s = .next (afterByte v s) := by
  rcases exec_accept_cases hv hp hn' with ⟨h2, -⟩ | ⟨-, -, he⟩ | ⟨-, hf, -⟩
  · omega
  · exact he
  · exact absurd hf hcap

/-- With at most 2 bits held, a CHAR.ACCEPT holds its five bits too (R97). -/
theorem exec_accept_shifts {i : Instr} {v : Sym} {s : State} (hv : i.acceptVal = some v) (hp : s.phase = true)
    (hn : s.cnt.toNat ≤ 2) : exec i s = .next (afterShift v s) := by
  rcases exec_accept_cases hv hp (by omega) with ⟨-, he⟩ | ⟨h3, -⟩ | ⟨h3, -⟩
  · exact he
  · omega
  · omega

/-- Settles O27, by the rows of the table: the first three shift in, the other five emit from bit CNT - 3 up. -/
theorem acceptOutcomeByHeldCount : Obligations.AcceptOutcomeByHeldCount := by
  intro row hrow i v s hv hp hcap hcnt
  have shifts (h : row.1 ≤ 2) : ∃ t, exec i s = .next t ∧ t.cnt.toNat = row.1 + 5 ∧ t.ovalid = false ∧ t.nout = s.nout := by
    have hn : s.cnt.toNat ≤ 2 := hcnt.trans_le h
    exact ⟨_, exec_accept_shifts hv hp hn, by rw [afterShift_cnt v hn, hcnt], rfl, rfl⟩
  have fills (h : 3 ≤ row.1) (h' : row.1 ≤ 7) : ∃ t, exec i s = .next t ∧ t.cnt.toNat = row.1 + 5 - 8 ∧
      t.ovalid = true ∧ t.nout = s.nout + 1#16 ∧ t.obyte = (shiftIn s.acc v).extractLsb' (row.1 + 5 - 8) 8 := by
    have hn' : s.cnt.toNat ≤ 7 := hcnt.trans_le h'
    refine ⟨_, exec_accept_fills hv hp hcap (h.trans_eq hcnt.symm) hn', by rw [afterByte_cnt v hn', hcnt], rfl, rfl, ?_⟩
    rw [← hcnt]
    rfl
  simp only [List.mem_cons, List.not_mem_nil, or_false] at hrow
  rcases hrow with rfl | rfl | rfl | rfl | rfl | rfl | rfl | rfl
  iterate 3 exact shifts (by decide)
  iterate 5 exact fills (by decide) (by decide)

/-! ## A row of accepted symbols -/

/-- A CHAR.ACCEPT with room for a byte, if it completes one, takes five bits in: they are held, or gone out in a byte that
NOUT counts. -/
theorem exec_accept_takes_five {i : Instr} {v : Sym} {s : State} (hv : i.acceptVal = some v) (hp : s.phase = true)
    (hcnt : s.cnt.toNat ≤ 7) (hroom : 3 ≤ s.cnt.toNat → s.nout.toNat < s.cap.toNat) :
    ∃ t, exec i s = .next t ∧ t.phase = true ∧ t.cap = s.cap ∧ t.cnt.toNat ≤ 7 ∧
      8 * t.emitted.length + t.cnt.toNat = s.cnt.toNat + 5 ∧ t.nout.toNat = s.nout.toNat + t.emitted.length := by
  rcases exec_accept_cases hv hp hcnt with ⟨hn, he⟩ | ⟨hn, -, he⟩ | ⟨hn, hf, -⟩
  · have hc := afterShift_cnt v hn
    exact ⟨_, he, hp, rfl, by omega, by rw [afterShift_emitted, hc]; simp, rfl⟩
  · have hc := afterByte_cnt v hcnt
    refine ⟨_, he, hp, rfl, by omega, ?_, afterByte_nout v (hroom hn)⟩
    rw [afterByte_emitted, List.length_singleton, hc]
    omega
  · exact absurd (congrArg BitVec.toNat hf) (hroom hn).ne

/-- A row of accepted symbols with room for their whole bytes: each brings five bits, which are held or gone out. -/
theorem runCommands_accepts (is : List Instr) (s : State) (hv : ∀ i ∈ is, ∃ v, i.acceptVal = some v)
    (hp : s.phase = true) (hcnt : s.cnt.toNat ≤ 7)
    (hroom : 8 * s.nout.toNat + s.cnt.toNat + 5 * is.length < 8 * s.cap.toNat + 8) :
    ∃ t bs, runCommands is s = some (t, bs) ∧ t.phase = true ∧ t.cnt.toNat ≤ 7 ∧
      8 * bs.length + t.cnt.toNat = s.cnt.toNat + 5 * is.length ∧ t.nout.toNat = s.nout.toNat + bs.length := by
  induction is generalizing s with
  | nil => exact ⟨s, [], rfl, hp, hcnt, Nat.zero_add _, rfl⟩
  | cons i is ih =>
    obtain ⟨⟨v, hi⟩, his⟩ := List.forall_mem_cons.mp hv
    rw [List.length_cons] at hroom
    obtain ⟨t, he, htp, htcap, htcnt, hbits, hnout⟩ := exec_accept_takes_five hi hp hcnt (by omega)
    obtain ⟨u, bs, hrun, hup, hucnt, hubits, hunout⟩ := ih t his htp htcnt (by rw [htcap]; omega)
    refine ⟨u, t.emitted ++ bs, ?_, hup, hucnt, ?_, ?_⟩
    · rw [runCommands, he]
      simp only [hrun, Option.map_some]
    · rw [List.length_append, List.length_cons]
      omega
    · rw [List.length_append]
      omega

/-- Settles O28: eight symbols bring 40 bits, of which at most 7 are held, so 5 bytes have gone out. -/
theorem eightSymbolsGiveFiveBytes : Obligations.EightSymbolsGiveFiveBytes := by
  intro is vs s hvals hlen hp hcnt hroom
  have hv : ∀ i ∈ is, ∃ v, i.acceptVal = some v := by
    intro i hi
    obtain ⟨v, -, hv⟩ := List.mem_map.mp (hvals ▸ List.mem_map_of_mem hi)
    exact ⟨v, hv.symm⟩
  have hzero : s.cnt.toNat = 0 := congrArg BitVec.toNat hcnt
  obtain ⟨t, bs, hrun, htp, htcnt, hbits, hnout⟩ := runCommands_accepts is s hv hp (by omega) (by omega)
  have hfive : bs.length = 5 := by omega
  exact ⟨t, bs, hrun, hfive, BitVec.eq_of_toNat_eq (by rw [BitVec.toNat_ofNat]; omega), by omega, htp⟩

end Sys2Proof.Machine
end

section
/-! PROOFS. The bit string of a decode's symbols (41_char.md R95) under one symbol more: the bytes before stay, and the byte
that the symbol completes is the one the block emits. -/

namespace Sys2Proof.Machine

open Sys2Proof

/-! ## The packed number -/

/-- One symbol more enters below the others. -/
theorem packed_append_singleton (vs : List Sym) (v : Sym) : packed (vs ++ [v]) = 32 * packed vs + v.toNat := by
  rw [packed, List.foldl_append]
  rfl

/-- One symbol more leaves the whole bytes as they are. -/
theorem packedByte_append_singleton (vs : List Sym) (v : Sym) {i : Nat} (hi : 8 * (i + 1) ≤ 5 * vs.length) :
    packedByte (vs ++ [v]) i = packedByte vs i := by
  have hlow : (32 * packed vs + v.toNat) >>> 5 = packed vs := by
    rw [Nat.shiftRight_eq_div_pow]
    omega
  have hshift : 5 * (vs ++ [v]).length - 8 * (i + 1) = 5 + (5 * vs.length - 8 * (i + 1)) := by
    rw [List.length_append, List.length_singleton]
    omega
  rw [packedByte, packed_append_singleton, hshift, Nat.shiftRight_add, hlow]
  rfl

/-- More symbols leave the whole bytes as they are. -/
theorem packedByte_append (vs us : List Sym) {i : Nat} (hi : 8 * (i + 1) ≤ 5 * vs.length) :
    packedByte (vs ++ us) i = packedByte vs i := by
  induction us generalizing vs with
  | nil => rw [List.append_nil]
  | cons u us ih =>
    have hlen : 8 * (i + 1) ≤ 5 * (vs ++ [u]).length := by
      rw [List.length_append]
      omega
    rw [List.append_cons, ih (vs ++ [u]) hlen, packedByte_append_singleton vs u hi]

/-- The first bytes, as many as the symbols so far make up, are those of any longer row of symbols. -/
theorem packedBytes_append (vs us : List Sym) {n : Nat} (hn : 8 * n ≤ 5 * vs.length) :
    packedBytes (vs ++ us) n = packedBytes vs n := by
  refine List.map_congr_left fun i hi => packedByte_append vs us ?_
  have := List.mem_range.mp hi
  omega

/-- One byte more. -/
theorem packedBytes_succ (vs : List Sym) (n : Nat) : packedBytes vs (n + 1) = packedBytes vs n ++ [packedByte vs n] := by
  rw [packedBytes, List.range_succ, List.map_append]
  rfl

/-- As many bytes as asked for. -/
theorem packedBytes_length (vs : List Sym) (n : Nat) : (packedBytes vs n).length = n := by
  rw [packedBytes, List.length_map, List.length_range]

/-! ## The registers -/

/-- No symbols yet. -/
theorem stream_nil {s : State} (hacc : s.acc = 0#13) (hcnt : s.cnt = 0#4) (hnout : s.nout = 0#16) : Stream [] s :=
  ⟨by rw [hnout]; rfl, by rw [hcnt]; rfl, by rw [hacc]; rfl⟩

/-- The law is over ACC, CNT and NOUT. -/
theorem Stream.congr {vs : List Sym} {s t : State} (h : Stream vs s) (hacc : t.acc = s.acc) (hcnt : t.cnt = s.cnt)
    (hnout : t.nout = s.nout) : Stream vs t :=
  ⟨by rw [hnout, h.nout_eq], by rw [hcnt, h.cnt_eq], by rw [hacc, h.acc_eq]⟩

/-- The bits taken in are counted in NOUT, or held. -/
theorem Stream.bits {vs : List Sym} {s : State} (h : Stream vs s) :
    8 * s.nout.toNat + s.cnt.toNat = 5 * vs.length := by
  rw [h.nout_eq, h.cnt_eq, Nat.div_add_mod]

/-- The counts and the accumulator of a decode make up the law. -/
theorem stream_of_bits {vs : List Sym} {s : State} (hbits : 8 * s.nout.toNat + s.cnt.toNat = 5 * vs.length)
    (hcnt : s.cnt.toNat ≤ 7) (hacc : s.acc.toNat = packed vs % 2 ^ 13) : Stream vs s :=
  ⟨by omega, by omega, hacc⟩

/-- The shift-in of a symbol is its place in the packed number. -/
theorem Stream.shiftIn_toNat {vs : List Sym} {s : State} (h : Stream vs s) (v : Sym) :
    (shiftIn s.acc v).toNat = packed (vs ++ [v]) % 2 ^ 13 := by
  rw [Machine.shiftIn_toNat, h.acc_eq, packed_append_singleton]
  omega

/-- Of a number, the accumulator keeps every bit that the top byte of the held ones is made of. -/
theorem mod_div_mod_of_le (b : Nat) {m : Nat} (hm : m ≤ 5) : b % 2 ^ 13 / 2 ^ m % 256 = b / 2 ^ m % 256 := by
  have hpow : 2 ^ 13 = 2 ^ m * 2 ^ (13 - m) := (pow_mul_pow_sub 2 (by omega)).symm
  rw [hpow, Nat.mod_mul_right_div_self]
  exact Nat.mod_mod_of_dvd _ (pow_dvd_pow 2 (show 8 ≤ 13 - m by omega))

/-- The byte emitted is the next one of the bit string (R95, R96). -/
theorem Stream.topByte_eq {vs : List Sym} {s : State} (h : Stream vs s) (v : Sym) (hn : 3 ≤ s.cnt.toNat) :
    topByte (shiftIn s.acc v) (heldAfter s.cnt) = packedByte (vs ++ [v]) s.nout.toNat := by
  have hbits := h.bits
  have hcnt : s.cnt.toNat ≤ 7 := by
    rw [h.cnt_eq]
    omega
  have hshift : 5 * (vs ++ [v]).length - 8 * (s.nout.toNat + 1) = heldAfter s.cnt - 8 := by
    rw [List.length_append, List.length_singleton, heldAfter]
    omega
  apply BitVec.eq_of_toNat_eq
  rw [topByte_toNat, h.shiftIn_toNat, mod_div_mod_of_le _ (by rw [heldAfter]; omega), packedByte, hshift,
    Nat.shiftRight_eq_div_pow, BitVec.toNat_ofNat]

/-- The law after a symbol that completes no byte. -/
theorem Stream.afterShift {vs : List Sym} {s : State} (h : Stream vs s) (v : Sym) (hn : s.cnt.toNat ≤ 2) :
    Stream (vs ++ [v]) (afterShift v s) := by
  have hbits := h.bits
  have hcnt := afterShift_cnt v hn
  refine stream_of_bits ?_ (by omega) (h.shiftIn_toNat v)
  rw [hcnt, List.length_append, List.length_singleton, show (Machine.afterShift v s).nout = s.nout from rfl]
  omega

/-- The law after a symbol that completes a byte. -/
theorem Stream.afterByte {vs : List Sym} {s : State} (h : Stream vs s) (v : Sym) (hn : 3 ≤ s.cnt.toNat)
    (hn' : s.cnt.toNat ≤ 7) (hlt : s.nout.toNat < s.cap.toNat) : Stream (vs ++ [v]) (afterByte v s) := by
  have hbits := h.bits
  have hcnt := afterByte_cnt v hn'
  refine stream_of_bits ?_ (by omega) (h.shiftIn_toNat v)
  rw [hcnt, List.length_append, List.length_singleton, afterByte_nout v hlt]
  omega

end Sys2Proof.Machine
end

section
/-! PROOFS. The host's record beside the block (20_memory.md R44, 41_char.md R95): its length is NOUT, and its bytes are those
of the symbols accepted. -/

namespace Sys2Proof.Machine

open Sys2Proof

/-- An edge that begins no decode adds to NOUT as many bytes as it presents (R91). -/
theorem step_nout_toNat {s t : State} (hinv : Inv s) (h : step s = .next t)
    (he : (sampleInputs s).1.restarts = false) : t.nout.toNat = s.nout.toNat + t.emitted.length := by
  cases hv : t.ovalid with
  | true =>
    obtain ⟨-, hne, -, -, hnout, -⟩ := step_of_ovalid h hv
    rw [emitted_of_valid t hv, hnout, nout_succ_toNat _ _ (hinv.nout_lt hne), List.length_singleton]
  | false =>
    have hnout : t.nout = s.nout := by
      rcases step_continues h he with ⟨-, hi, hevent⟩ | ⟨-, rfl⟩
      · rcases atMostOneBytePerCommand _ _ t hi (exec_of_event hevent) with ⟨hv', -⟩ | ⟨-, hnout⟩
        · cases hv.symm.trans hv'
        · exact hnout
      · rfl
    rw [emitted_of_not_valid t hv, hnout]
    rfl

/-- Settles O51: at a START or a reset both are 0, and any other edge adds the bytes it presents to both. -/
theorem hostHoldsNoutBytes : Obligations.HostHoldsNoutBytes := by
  intro s h hinv hlen
  obtain ⟨t, ht⟩ := noEdgeFaultsUnderTheInvariants s hinv
  refine ⟨t, _, observedStep_next s t h ht, ?_⟩
  cases he : (sampleInputs s).1.restarts with
  | true =>
    obtain ⟨-, -, hnout, hv⟩ := step_restarts ht he
    rw [observe_bytes_restart h _ t he, emitted_of_not_valid t hv, hnout]
    rfl
  | false => rw [observe_bytes h _ t he, List.length_append, hlen, step_nout_toNat hinv ht he]

/-! ## The stream law -/

/-- The symbols of the current decode after a command other than START (`absorb`, of the command). -/
def absorbCommand (vs : List Sym) (i : Instr) (s : State) : List Sym :=
  if s.phase then
    match i.acceptVal with
    | some v => if 3 ≤ s.cnt.toNat ∧ s.nout = s.cap then vs else vs ++ [v]
    | none => vs
  else vs

/-- `absorb` at a START or a reset. -/
theorem absorb_restart (vs : List Sym) {s : State} (he : (sampleInputs s).1.restarts = true) : absorb vs s = [] :=
  if_pos he

/-- `absorb` at a command other than START. -/
theorem absorb_command (vs : List Sym) {s : State} (he : (sampleInputs s).1.restarts = false)
    (hv : (sampleInputs s).1.cmdValid = true) :
    absorb vs s = absorbCommand vs (decode (sampleInputs s).1.cmd) s := by
  rw [absorb, he, hv]
  rfl

/-- `absorb` at an idle edge. -/
theorem absorb_idle (vs : List Sym) {s : State} (he : (sampleInputs s).1.restarts = false)
    (hv : (sampleInputs s).1.cmdValid = false) : absorb vs s = vs := by
  simp [absorb, he, hv]

/-- The block and the host in a decode that has accepted the symbols vs: the registers follow the law, and the bytes are
the first NOUT ones of the bit string. -/
structure Delivered (vs : List Sym) (s : State) (bytes : List OutByte) : Prop where
  stream : Stream vs s
  bytes_eq : bytes = packedBytes vs s.nout.toNat

/-- The law does not speak of the inputs still to come. -/
theorem Delivered.with_inputs {vs : List Sym} {s : State} {bytes : List OutByte} (h : Delivered vs s bytes)
    (later : List EdgeInput) : Delivered vs { s with inputs := later } bytes :=
  ⟨h.stream.congr rfl rfl rfl, h.bytes_eq⟩

/-- Where ACC, CNT and NOUT are kept, no byte is due. -/
theorem Delivered.congr {vs : List Sym} {s t : State} {bytes : List OutByte} (h : Delivered vs s bytes)
    (hacc : t.acc = s.acc) (hcnt : t.cnt = s.cnt) (hnout : t.nout = s.nout) (hv : t.ovalid = false) :
    Delivered vs t (bytes ++ t.emitted) := by
  refine ⟨h.stream.congr hacc hcnt hnout, ?_⟩
  rw [emitted_of_not_valid t hv, List.append_nil, hnout, h.bytes_eq]

/-- A symbol that completes no byte. -/
theorem Delivered.afterShift {vs : List Sym} {s : State} {bytes : List OutByte} (h : Delivered vs s bytes) (v : Sym)
    (hn : s.cnt.toNat ≤ 2) : Delivered (vs ++ [v]) (afterShift v s) (bytes ++ (afterShift v s).emitted) := by
  have hbits := h.stream.bits
  refine ⟨h.stream.afterShift v hn, ?_⟩
  rw [afterShift_emitted, List.append_nil, h.bytes_eq]
  exact (packedBytes_append vs [v] (by omega)).symm

/-- A symbol that completes a byte. -/
theorem Delivered.afterByte {vs : List Sym} {s : State} {bytes : List OutByte} (h : Delivered vs s bytes) (v : Sym)
    (hn : 3 ≤ s.cnt.toNat) (hn' : s.cnt.toNat ≤ 7) (hlt : s.nout.toNat < s.cap.toNat) :
    Delivered (vs ++ [v]) (afterByte v s) (bytes ++ (afterByte v s).emitted) := by
  have hbits := h.stream.bits
  refine ⟨h.stream.afterByte v hn hn' hlt, ?_⟩
  rw [afterByte_emitted, afterByte_nout v hlt, h.bytes_eq, packedBytes_succ, packedBytes_append vs [v] (by omega),
    h.stream.topByte_eq v hn]

/-- A command other than START keeps the law, with the symbol it accepts, if it accepts one. -/
theorem Event.delivered {i : Instr} {s t : State} (hevent : Event i s t) (hwf : i.wellFormed = true)
    (hi : ∀ b capv, i ≠ .start b capv) (hinv : Inv s) {vs : List Sym} {bytes : List OutByte} (h : Delivered vs s bytes) :
    Delivered (absorbCommand vs i s) t (bytes ++ t.emitted) := by
  have hexec := exec_of_event hevent
  cases hp : s.phase with
  | false =>
    cases hexec.symm.trans (exec_stopped i s hi hp)
    rw [absorbCommand, hp]
    exact h.congr rfl rfl rfl rfl
  | true =>
    rw [absorbCommand, if_pos hp]
    cases hv : i.acceptVal with
    | none =>
      obtain ⟨hacc, hcnt, hnout, -, hov⟩ := hevent.eq_of_no_symbol hwf hi hv
      exact h.congr hacc hcnt hnout hov
    | some v =>
      rcases exec_accept_cases hv hp hinv.cnt_le with ⟨hn, he⟩ | ⟨hn, hne, he⟩ | ⟨hn, hf, he⟩
      · cases hexec.symm.trans he
        dsimp only
        rw [if_neg (by omega)]
        exact h.afterShift v hn
      · cases hexec.symm.trans he
        dsimp only
        rw [if_neg fun hfull => hne hfull.2]
        exact h.afterByte v hn hinv.cnt_le (hinv.nout_lt hne)
      · cases hexec.symm.trans he
        dsimp only
        rw [if_pos ⟨hn, hf⟩]
        exact h.congr rfl rfl rfl rfl

/-- Settles O52, by the kind of edge: a START or a reset begins with no symbols, a command adds the symbol it accepts, and
an idle edge adds none. -/
theorem streamLawHoldsAfterEveryEdge : Obligations.StreamLawHoldsAfterEveryEdge := by
  intro vs s h hinv hstream hbytes
  obtain ⟨t, ht⟩ := noEdgeFaultsUnderTheInvariants s hinv
  refine ⟨t, _, observedStep_next s t h ht, ?_⟩
  suffices hd : Delivered (absorb vs s) t (h.observe (sampleInputs s).1 t).bytes from ⟨hd.stream, hd.bytes_eq⟩
  cases he : (sampleInputs s).1.restarts with
  | true =>
    obtain ⟨hacc, hcnt, hnout, hv⟩ := step_restarts ht he
    rw [absorb_restart vs he, observe_bytes_restart h _ t he, emitted_of_not_valid t hv]
    exact ⟨stream_nil hacc hcnt hnout, by rw [hnout]; rfl⟩
  | false =>
    have hsampled := Delivered.with_inputs ⟨hstream, hbytes⟩ s.inputs.tail
    rw [observe_bytes h _ t he]
    rcases step_continues ht he with ⟨hv, hi, hevent⟩ | ⟨hv, rfl⟩
    · rw [absorb_command vs he hv]
      exact hevent.delivered (wellFormed_decode _) hi (hinv.with_inputs _) hsampled
    · rw [absorb_idle vs he hv]
      exact hsampled.congr rfl rfl rfl rfl

end Sys2Proof.Machine
end

section
/-! PROOFS. The decode call (30_encoding.md R72): START begins a decode with no symbols, the characters of the text add theirs,
and a stop leaves the result that the laws of 41_char.md give (R95, R96). -/

namespace Sys2Proof.Machine

open Sys2Proof

/-! ## Results -/

/-- The result of a decode that has taken the symbols vs and then come to r, if the buffer is large enough. -/
def resultOf (cap : Cap) (vs : List Sym) (r : StopReason) : Result :=
  if 5 * vs.length / 8 ≤ cap.toNat then
    ⟨BitVec.ofNat 16 (5 * vs.length / 8), r.code, packedBytes vs (5 * vs.length / 8)⟩
  else ⟨cap, StopReason.overflow.code, packedBytes vs cap.toNat⟩

/-- A text's result is that of its symbols and its reason. -/
theorem textResult_eq (cap : Cap) (strict : Bool) (text : List CharCode) :
    textResult cap strict text = resultOf cap (scan strict text).1 (scan strict text).2 := rfl

/-- Where the bytes of the symbols fit, the registers and the host's record are the result. -/
theorem Delivered.resultOf_eq {vs : List Sym} {s : State} {bytes : List OutByte} (h : Delivered vs s bytes)
    (hinv : Inv s) (r : StopReason) : resultOf s.cap vs r = ⟨s.nout, r.code, bytes⟩ := by
  have hnout := h.stream.nout_eq
  rw [resultOf, ← hnout, if_pos hinv.nout_le, ← h.bytes_eq, BitVec.ofNat_toNat, BitVec.setWidth_eq]

/-- Where a symbol completes a byte with NOUT = CAP, the bytes delivered are the first CAP ones of any row of symbols
that goes on with it. -/
theorem Delivered.resultOf_overflow {vs : List Sym} {s : State} {bytes : List OutByte} (h : Delivered vs s bytes)
    (hn : 3 ≤ s.cnt.toNat) (hf : s.nout = s.cap) (v : Sym) (us : List Sym) (r : StopReason) :
    resultOf s.cap (vs ++ v :: us) r = ⟨s.nout, StopReason.overflow.code, bytes⟩ := by
  have hbits := h.stream.bits
  have hfull : ¬ 5 * (vs ++ v :: us).length / 8 ≤ s.cap.toNat := by
    rw [List.length_append, List.length_cons, ← hf]
    omega
  rw [resultOf, if_neg hfull, ← hf, packedBytes_append vs (v :: us) (by omega), h.bytes_eq]

/-- A state that has stopped for one of the four reasons has a result (R139). -/
theorem decodeResult_of_stopped {s : State} (h : HostView) (hp : s.phase = false) {r : StopReason}
    (hr : s.reason = r.code) : decodeResult (s, h) = some ⟨s.nout, r.code, h.bytes⟩ := by
  have hend : (s.succeeded || s.failed) = true := by
    rw [State.succeeded, State.failed, hp, hr]
    cases r <;> decide
  rw [decodeResult, if_pos hend, hr]

/-- A state that has a result is STOPPED, and has succeeded or failed. -/
theorem stopped_of_decodeResult {p : State × HostView} {r : Result} (h : decodeResult p = some r) :
    p.1.phase = false ∧ (p.1.succeeded = true ∨ p.1.failed = true) := by
  rw [decodeResult] at h
  split at h
  · rename_i hend
    refine ⟨?_, Bool.or_eq_true_iff.mp hend⟩
    cases hp : p.1.phase with
    | false => rfl
    | true => simp [State.succeeded, State.failed, hp] at hend
  · cases h

/-- After k edges the block and the host beside it have a result. -/
def GivesResult (k : Nat) (s : State) (h : HostView) (r : Result) : Prop :=
  ∃ p, observedRun k (s, h) = .next p ∧ decodeResult p = some r

/-- The result is that of the run after the first edge. -/
theorem GivesResult.of_step {k : Nat} {s t : State} {h : HostView} {r : Result} (hs : step s = .next t)
    (ht : GivesResult k t (h.observe (sampleInputs s).1 t) r) : GivesResult (k + 1) s h r := by
  obtain ⟨p, hrun, hp⟩ := ht
  exact ⟨p, (observedRun_succ k h hs).trans hrun, hp⟩

/-- A result stays until a START or a reset (42_control.md R110). -/
theorem givesResult_of_stopped (k : Nat) {s : State} (h : HostView) (hp : s.phase = false) {r : StopReason}
    (hr : s.reason = r.code) (hin : ∀ e ∈ s.inputs, e.restarts = false) :
    GivesResult k s h ⟨s.nout, r.code, h.bytes⟩ := by
  induction k generalizing s h with
  | zero => exact ⟨_, rfl, decodeResult_of_stopped h hp hr⟩
  | succ k ih =>
    have he := restarts_sampleInputs hin
    have hstep : step s = .next (clearValid { s with inputs := s.inputs.tail }) := by
      rw [step, nextEdge, sampleInputs_snd]
      exact edge_stopped hp he
    have hbytes := observe_bytes h _ (clearValid { s with inputs := s.inputs.tail }) he
    rw [emitted_clearValid, List.append_nil] at hbytes
    rw [← hbytes]
    exact .of_step hstep (ih _ hp hr fun e he => hin e (List.mem_of_mem_tail he))

/-- A stop leaves the counts and the host's record of the state before it as the result. -/
theorem givesResult_of_stop (k : Nat) {s : State} (h : HostView) (r : StopReason)
    (hstep : step s = .next (stop r (clearValid { s with inputs := s.inputs.tail })))
    (hin : ∀ e ∈ s.inputs, e.restarts = false) : GivesResult (k + 1) s h ⟨s.nout, r.code, h.bytes⟩ := by
  have hbytes := observe_bytes h _ (stop r (clearValid { s with inputs := s.inputs.tail })) (restarts_sampleInputs hin)
  rw [emitted_of_not_valid _ rfl, List.append_nil] at hbytes
  rw [← hbytes]
  exact .of_step hstep (givesResult_of_stopped k _ rfl rfl fun e he => hin e (List.mem_of_mem_tail he))

/-! ## The lines of a text -/

/-- The edges of the characters of a text and of the END after it. -/
def textEdges (text : List CharCode) : List EdgeInput := asmEdges (strLines text ++ [.endInput])

/-- The edge of a character is a CHAR command with reserved bits 0. -/
theorem textEdges_cons (c : CharCode) (cs : List CharCode) :
    textEdges (c :: cs) = ⟨false, true, charWord 0#9 c⟩ :: textEdges cs := by
  have hedge : (AsmLine.char c).edge = ⟨false, true, charWord 0#9 c⟩ := by rw [AsmLine.edge, word_char]
  rw [← hedge]
  rfl

/-- One edge for each character, and one for END. -/
theorem textEdges_length (text : List CharCode) : (textEdges text).length = text.length + 1 := by
  rw [textEdges, asmEdges, List.length_map, List.length_append, strLines, List.length_map, List.length_singleton]

/-- A text holds no START and no reset. -/
theorem textEdges_restarts (text : List CharCode) : ∀ e ∈ textEdges text, e.restarts = false := by
  induction text with
  | nil => decide
  | cons c cs ih =>
    rw [textEdges_cons]
    refine List.forall_mem_cons.mpr ⟨(restarts_eq_false_iff _).mpr ⟨rfl, fun _ => ?_⟩, ih⟩
    rw [cmdOp_charWord]
    decide

/-- The edges of a decode: START, and the text with its END. -/
theorem asmEdges_decodeLines (cap : Cap) (strict : Bool) (text : List CharCode) :
    asmEdges (decodeLines cap strict text) = ⟨false, true, encode (.start strict cap)⟩ :: textEdges text := by
  have hedge : (AsmLine.start cap strict).edge = ⟨false, true, encode (.start strict cap)⟩ := by
    rw [AsmLine.edge, word_start]
  rw [← hedge]
  rfl

/-- A decode of L characters with END has L + 2 edges (70_reset_and_hazards.md R141). -/
theorem asmEdges_decodeLines_length (cap : Cap) (strict : Bool) (text : List CharCode) :
    (asmEdges (decodeLines cap strict text)).length = text.length + 2 := by
  rw [asmEdges_decodeLines, List.length_cons, textEdges_length]

/-! ## The decode -/

/-- The step at a character of the text does the CHAR row of its code. -/
theorem step_textEdges_cons {s : State} {c : CharCode} {cs : List CharCode} (hin : s.inputs = textEdges (c :: cs)) :
    step s = exec (decodeChar 0#9 c) { s with inputs := s.inputs.tail } := by
  rw [textEdges_cons] at hin
  rw [stepRunsDecodedCommand s _ _ hin, decode_charWord, hin, List.tail_cons]

/-- A decode that goes on gives the result of the symbols it has taken and those of the text still to come: each character
stops it, adds its symbol, adds nothing, or finds the buffer full. -/
theorem givesResult_of_active (text : List CharCode) (vs : List Sym) (s : State) (h : HostView)
    (hp : s.phase = true) (hinv : Inv s) (hd : Delivered vs s h.bytes) (hin : s.inputs = textEdges text) :
    GivesResult (text.length + 1) s h
      (resultOf s.cap (vs ++ (scan s.strict text).1) (scan s.strict text).2) := by
  induction text generalizing vs s h with
  | nil =>
    have hstep : step s = .next (stop .endOfInput (clearValid { s with inputs := s.inputs.tail })) := by
      rw [stepRunsDecodedCommand s _ [] hin, decode_of_op_end rfl, hin]
      exact exec_of_event (.ended _ rfl hp)
    rw [scan, List.append_nil, hd.resultOf_eq hinv]
    exact givesResult_of_stop 0 h _ hstep (hin ▸ textEdges_restarts [])
  | cons c cs ih =>
    have hrestarts : ∀ e ∈ s.inputs, e.restarts = false := hin ▸ textEdges_restarts (c :: cs)
    have hstep := step_textEdges_cons hin
    obtain ⟨hi, hwf⟩ := isRowOf_decodeChar 0#9 c
    have goesOn {t : State} (vs' : List Sym) (ht : step s = .next t) (htp : t.phase = true) (hcap : t.cap = s.cap)
        (hstrict : t.strict = s.strict) (htd : Delivered vs' t (h.bytes ++ t.emitted)) :
        GivesResult (cs.length + 1 + 1) s h
          (resultOf s.cap (vs' ++ (scan s.strict cs).1) (scan s.strict cs).2) := by
      rw [← observe_bytes h _ t (restarts_sampleInputs hrestarts)] at htd
      rw [← hcap, ← hstrict]
      refine .of_step ht (ih vs' t _ htp (everyEdgeKeepsTheInvariants s t hinv ht) htd ?_)
      rw [step_inputs ht, hin, textEdges_cons, List.tail_cons]
    rw [scan]
    cases hc : classOf c with
    | pad =>
      rw [List.append_nil, hd.resultOf_eq hinv]
      exact givesResult_of_stop _ h .pad (hstep.trans (exec_of_event (.padded c hi hc hp))) hrestarts
    | skip =>
      cases hs : s.strict with
      | true =>
        rw [if_pos rfl, List.append_nil, hd.resultOf_eq hinv]
        exact givesResult_of_stop _ h .invalid (hstep.trans (exec_of_event (.rejected c hi hc hp hs))) hrestarts
      | false =>
        rw [if_neg Bool.false_ne_true, ← hs]
        exact goesOn vs (hstep.trans (exec_of_event (.skipped c hi hc hp hs))) hp rfl rfl (hd.congr rfl rfl rfl rfl)
    | accept v =>
      have hv := acceptVal_of_class _ c v hwf hi hc
      have hsampled := hd.with_inputs s.inputs.tail
      rcases exec_accept_cases (s := { s with inputs := s.inputs.tail }) hv hp hinv.cnt_le with
        ⟨hn, he⟩ | ⟨hn, hne, he⟩ | ⟨hn, hf, he⟩
      · rw [List.append_cons]
        exact goesOn _ (hstep.trans he) hp rfl rfl (hsampled.afterShift v hn)
      · rw [List.append_cons]
        exact goesOn _ (hstep.trans he) hp rfl rfl (hsampled.afterByte v hn hinv.cnt_le (hinv.nout_lt hne))
      · rw [hd.resultOf_overflow hn hf]
        exact givesResult_of_stop _ h .overflow (hstep.trans he) hrestarts

/-- The edges of a decode give the text's result, from any state and whatever the host has stored before. -/
theorem givesResult_of_decodeLines (cap : Cap) (strict : Bool) (text : List CharCode) (s : State) (h : HostView)
    (hin : s.inputs = asmEdges (decodeLines cap strict text)) :
    GivesResult (text.length + 2) s h (textResult cap strict text) := by
  rw [asmEdges_decodeLines] at hin
  have hstep : step s = .next (beginDecode strict cap (clearValid { s with inputs := textEdges text })) := by
    rw [stepRunsDecodedCommand s _ _ hin, decode_encode_start]
    rfl
  refine .of_step hstep (givesResult_of_active text [] _ _ rfl ⟨Nat.zero_le 7, Nat.zero_le _, fun _ => rfl⟩
    ⟨stream_nil rfl rfl rfl, ?_⟩ rfl)
  have hrestart : EdgeInput.restarts ⟨false, true, encode (.start strict cap)⟩ = true := by
    rw [encode_start_eq_opWord, EdgeInput.restarts, cmdOp_opWord]
    rfl
  rw [sampleInputs_cons s _ _ hin, observe_bytes_restart h _ _ hrestart]
  rfl

/-- Settles O53: the call runs the edges of the decode, which give the text's result. -/
theorem decodeCallGivesTheTextsResult : Obligations.DecodeCallGivesTheTextsResult := by
  intro capacity strict text s
  obtain ⟨p, hrun, hp⟩ := givesResult_of_decodeLines (clampCapacity capacity) strict text
    { s with inputs := asmEdges (decodeLines (clampCapacity capacity) strict text) } .empty rfl
  simp only [decodeCall, asmEdges_decodeLines_length, hrun, hp]

/-! ## The least capacity -/

/-- A text by itself never ends with OVERFLOW: that takes a buffer too small. -/
theorem scan_ne_overflow (strict : Bool) (text : List CharCode) : (scan strict text).2.code ≠ StopReason.overflow.code := by
  induction text with
  | nil => exact nofun
  | cons c cs ih =>
    rw [scan]
    cases classOf c with
    | pad => exact nofun
    | skip =>
      cases strict with
      | true => exact nofun
      | false => exact ih
    | accept v => exact ih

/-- A capacity up to 65535 is the one encoded (R72). -/
theorem clampCapacity_toNat {capacity : Nat} (h : capacity ≤ 65535) : (clampCapacity capacity).toNat = capacity := by
  rw [clampCapacity, min_eq_left h, BitVec.toNat_ofNat]
  omega

/-- Settles O54, by whether the whole bytes of the symbols fit the capacity. -/
theorem leastCapacityIsFiveEighths : Obligations.LeastCapacityIsFiveEighths := by
  intro capacity strict text s r hcap hcall
  cases hcall.symm.trans (decodeCallGivesTheTextsResult capacity strict text s)
  have hclamp := clampCapacity_toNat hcap
  have hreason : (scan strict text).2.code ≠ 3#3 := scan_ne_overflow strict text
  rw [textResult_eq, resultOf, hclamp]
  by_cases hfits : 5 * (scan strict text).1.length / 8 ≤ capacity
  · have hnout : (BitVec.ofNat 16 (5 * (scan strict text).1.length / 8)).toNat = 5 * (scan strict text).1.length / 8 := by
      rw [BitVec.toNat_ofNat]
      omega
    rw [if_pos hfits]
    exact ⟨⟨fun h => absurd h hreason, fun h => absurd hfits h.not_ge⟩, fun h => absurd h hreason, fun _ => hnout,
      (packedBytes_length _ _).trans hnout.symm⟩
  · rw [if_neg hfits]
    exact ⟨⟨fun _ => not_le.mp hfits, fun _ => rfl⟩, fun _ => hclamp, fun h => absurd rfl h,
      (packedBytes_length _ _).trans hclamp.symm⟩

/-! ## The number of edges -/

/-- A run beside a host that goes on over k + 1 edges does so by a first step. -/
theorem observedRun_succ_inv {k : Nat} {s : State} {h : HostView} {p : State × HostView}
    (hrun : observedRun (k + 1) (s, h) = .next p) :
    ∃ t, step s = .next t ∧ observedRun k (t, h.observe (sampleInputs s).1 t) = .next p := by
  cases hs : step s with
  | next t => exact ⟨t, rfl, (observedRun_succ k h hs).symm.trans hrun⟩
  | fault f => simp [observedRun, observedStep, hs] at hrun
  | refused f => simp [observedRun, observedStep, hs] at hrun

/-- Beside a host the block runs as it does by itself, and takes one input off the list at each edge. -/
theorem core_run_of_observedRun (k : Nat) {s : State} {h : HostView} {p : State × HostView}
    (hrun : observedRun k (s, h) = .next p) :
    Host.Core.run core k s = .next p.1 ∧ p.1.inputs = s.inputs.drop k := by
  induction k generalizing s h with
  | zero =>
    cases hrun
    exact ⟨rfl, rfl⟩
  | succ k ih =>
    obtain ⟨t, hs, hrest⟩ := observedRun_succ_inv hrun
    obtain ⟨hcore, hinputs⟩ := ih hrest
    exact ⟨(core_run_succ k hs).trans hcore, by rw [hinputs, step_inputs hs, List.drop_tail]⟩

/-- Settles O55: the run beside a host has a result after these edges, so the block has stopped. -/
theorem decodeTakesLengthPlusTwoEdges : Obligations.DecodeTakesLengthPlusTwoEdges := by
  intro cap strict text s hin
  have hlen : s.inputs.length = text.length + 2 := by rw [hin, asmEdges_decodeLines_length]
  obtain ⟨p, hrun, hp⟩ := givesResult_of_decodeLines cap strict text s .empty hin
  obtain ⟨hstopped, hend⟩ := stopped_of_decodeResult hp
  obtain ⟨hcore, hinputs⟩ := core_run_of_observedRun _ hrun
  exact ⟨hlen, p.1, hcore, hstopped, hinputs.trans (List.drop_eq_nil_of_le hlen.le), hend⟩

end Sys2Proof.Machine
end
